-- ==== Sys2Proof/Word.lean ====
section
/-! DEFINITION. The values the LSBU handles: the byte, the pixel and the bitstream (spec/30_encoding.md R90, R92, R93). -/

namespace Sys2Proof

/-- A byte: one payload character, one colour channel, one group value (R92, R90, R97). Bit 0 has weight 1 (R11). -/
abbrev Byte := BitVec 8

/-- A bitstream; its first element is `s[0]`, the first bit written and the first bit read (R12). -/
abbrev Bitstream := List Bool

/-- A pixel (R90): three 8-bit channels and the XCH extra bits, which are carried through and never examined.
`x` is below `2 ^ XCH` in every well-formed pixel; XCH is a parameter (R8), so the width is a side condition and not a type. -/
structure Pixel where
  x : Nat
  r : Byte
  g : Byte
  b : Byte
  deriving DecidableEq, Repr, Inhabited

end Sys2Proof
end

