-- ==== Sys2Proof/Config.lean ====
section
/-! DEFINITION. What an implementation fixes (spec/00_scope.md R8, R9; spec/92_eei_decisions.md D22) and the free values
(spec/93_implementation_defined.md U1; spec/41_payload_framer.md R143). -/

namespace Sys2Proof

/-- The open parameters of the block. They are no state that changes (R18): `State.par` carries them and no step writes it (log 4). -/
structure Params where
  /-- DIMW: bits of WIDTH and of HEIGHT. -/
  dimw : Nat
  /-- LENW: bits of LEN and of OUT_LEN. -/
  lenw : Nat
  /-- XCH: extra bits per pixel above the 24 RGB bits. -/
  xch : Nat
  /-- CAP_PIX: elements of PIXIN and of PIXOUT; `none` where the platform sets no bound a command can meet. -/
  capPix : Option Nat
  /-- CAP_PAY: elements of PAY. -/
  capPay : Option Nat
  /-- CAP_TXT: elements of TXT. -/
  capTxt : Option Nat
  deriving DecidableEq, Repr

/-- The defaults of R8; the capacities are open and the defaults set no bound (DESIGN CHOICE, log 4). -/
def Params.defaults : Params :=
  { dimw := 16, lenw := 32, xch := 0, capPix := none, capPay := none, capTxt := none }

/-- IDXW, the bits of IDX and NPIX: twice DIMW (R8). -/
def Params.idxw (par : Params) : Nat := 2 * par.dimw

/-- The constraint on the parameters (R9). -/
abbrev Params.Ok (par : Params) : Prop :=
  1 ≤ par.dimw ∧ 1 ≤ par.lenw ∧ par.idxw ≤ par.lenw + 3

namespace Config

/-- Free value: what the n-th draw gives for a pixel that nothing has written since reset (U1). No value of it can be proved. -/
opaque freePixel : Nat → Pixel

/-- Free value: what the n-th draw gives for a byte that nothing has written since reset (U1), or that is not promised (U3). -/
opaque freeByte : Nat → Byte

/-- Free value: what the n-th draw gives for a bit the spec calls undefined (FRAMEBIT at i ≥ NBITS, R143). -/
opaque freeBit : Nat → Bool

end Config

end Sys2Proof
end

