-- ==== Sys2Proof/Syntax.lean ====
section
/-! DEFINITION. The operations of the LSBU: one constructor per row of spec/opcode_table.json (spec/30_encoding.md R104). -/

namespace Sys2Proof

/-- The memories of pixels (spec/10_state.md R35). -/
inductive PixelSpace where
  | pixin
  | pixout
  deriving DecidableEq, Repr

/-- The memories of bytes (R35). -/
inductive ByteSpace where
  | pay
  | txt
  deriving DecidableEq, Repr

/-- The three forms of FILL (spec/44_host_commands.md R205, and the table's row): `FILL S, i, v`, `FILL S, a..b, v` with both
ends included, `FILL S, a, [v0, v1, ...]`. -/
inductive FillForm (α : Type) where
  | one (i : Nat) (v : α)
  | range (a b : Nat) (v : α)
  | list (a : Nat) (vs : List α)
  deriving DecidableEq, Repr

/-- What FILL fills: pixels into a pixel memory, bytes into a byte memory. -/
inductive FillOp where
  | pixels (S : PixelSpace) (f : FillForm Pixel)
  | bytes (S : ByteSpace) (f : FillForm Byte)
  deriving DecidableEq, Repr

/-- The forms of DRAIN: `DRAIN S, i` (R206) and `DRAIN S, a..b`, which R207 and the programs of spec/95_test_vectors.md use
(log 18). -/
inductive DrainForm where
  | one (i : Nat)
  | range (a b : Nat)
  deriving DecidableEq, Repr

/-- What DRAIN reads. -/
inductive DrainOp where
  | pixels (S : PixelSpace) (f : DrainForm)
  | bytes (S : ByteSpace) (f : DrainForm)
  deriving DecidableEq, Repr

/-- Which source drives `R[0]` of an output pixel (spec/40_bit_sequencer.md R127). -/
inductive MuxSource where
  | payload
  | sentinel
  | pass
  deriving DecidableEq, Repr

/-- The operations, one constructor per row of spec/opcode_table.json, in the table's order. -/
inductive Instr where
  /-- NOP (CMD.OP = 00). -/
  | nop
  /-- ENCODE (CMD.OP = 01): the whole command, the architectural contract of R160. -/
  | encode
  /-- DECODE (CMD.OP = 10): the whole command, the architectural contract of R180. -/
  | decode
  /-- The reserved word CMD.OP = 11 (R105). -/
  | reservedOp3
  /-- ENC_CHECK (R166). -/
  | encCheck
  /-- DEC_CHECK (R186). -/
  | decCheck
  /-- ENC_STEP, pixel arm (R167). -/
  | encStepPixel
  /-- ENC_STEP, end arm (R168). -/
  | encStepEnd
  /-- DEC_STEP, pixel arm (R187, R188). -/
  | decStepPixel
  /-- DEC_STEP, end arm (R189). -/
  | decStepEnd
  /-- POSITIONS(width, height) (R121). -/
  | positions (width height : Nat)
  /-- NEXT (R123). -/
  | next
  /-- READBIT(pixel) (R124). -/
  | readbit (p : Pixel)
  /-- WRITEBIT(pixel, bit) (R125). -/
  | writebit (p : Pixel) (b : Bool)
  /-- MUXSEL(i, n) (R127). -/
  | muxsel (i n : Nat)
  /-- FRAME(t) (R141). -/
  | frame (t : List Byte)
  /-- FRAMEBIT(i) (R143). -/
  | framebit (i : Nat)
  /-- UNFRAME(s) (R144). -/
  | unframe (bits : Bitstream)
  /-- WR reg, value (R201). -/
  | wr (reg value : Nat)
  /-- RD reg (R202). -/
  | rd (reg : Nat)
  /-- START op (R203). -/
  | start (op : BitVec 2)
  /-- WAIT (R204). -/
  | wait
  /-- FILL (R206). -/
  | fill (f : FillOp)
  /-- DRAIN (R206). -/
  | drain (d : DrainOp)
  deriving DecidableEq, Repr

/-- The host's transactions (R200 to R206): what the second agent can do. -/
inductive HostOp where
  | wr (reg value : Nat)
  | rd (reg : Nat)
  | start (op : BitVec 2)
  | wait
  | fill (f : FillOp)
  | drain (d : DrainOp)
  deriving DecidableEq, Repr

end Sys2Proof
end

