-- ==== Sys2Proof/WellFormed.lean ====
section
/-! DEFINITION. Which operands an operation can have (spec/30_encoding.md R90, spec/40_bit_sequencer.md R121, R127). -/

namespace Sys2Proof

/-- The extra bits of a pixel fit XCH bits (R90); a memory element cannot hold more. -/
abbrev Pixel.Fits (par : Params) (p : Pixel) : Prop := p.x < 2 ^ par.xch

/-- Every pixel a FILL form names fits its element. -/
def fillPixelsFit (par : Params) : FillForm Pixel → Bool
  | .one _ v => decide (v.Fits par)
  | .range _ _ v => decide (v.Fits par)
  | .list _ vs => vs.all fun v => decide (v.Fits par)

/-- Well-formedness under the parameters: the pixels fit their elements (R90), the dimensions of POSITIONS fit DIMW bits (R121)
and MUXSEL's payload length fits LENW bits (R127: `n = LEN_L`). Every other operand is legal (R91, R106, R201: any register
number, any value). -/
def wellFormed (par : Params) : Instr → Bool
  | .nop => true
  | .encode => true
  | .decode => true
  | .reservedOp3 => true
  | .encCheck => true
  | .decCheck => true
  | .encStepPixel => true
  | .encStepEnd => true
  | .decStepPixel => true
  | .decStepEnd => true
  | .positions w h => decide (w < 2 ^ par.dimw ∧ h < 2 ^ par.dimw)
  | .next => true
  | .readbit p => decide (p.Fits par)
  | .writebit p _ => decide (p.Fits par)
  | .muxsel _ n => decide (n < 2 ^ par.lenw)
  | .frame _ => true
  | .framebit _ => true
  | .unframe _ => true
  | .wr _ _ => true
  | .rd _ => true
  | .start _ => true
  | .wait => true
  | .fill (.pixels _ f) => fillPixelsFit par f
  | .fill (.bytes _ _) => true
  | .drain _ => true

end Sys2Proof
end

