-- ==== Sys2Proof/Decode.lean ====
section
/-! DEFINITION. The two encodings of the block: the command word (spec/30_encoding.md R101, R105) and the engine's step dispatch
word (R103). FUNC and HOST rows have no bit pattern (R104) and hence no word. -/

namespace Sys2Proof

/-- Where IDX stands against NPIX when the engine dispatches (R103's arm condition). -/
inductive Arm where
  /-- IDX < NPIX. -/
  | pixel
  /-- IDX = NPIX. -/
  | last
  /-- IDX > NPIX, which R31 excludes. -/
  | beyond
  deriving DecidableEq, Repr

/-- Which of the two encodings a word belongs to; a step word is read together with its arm condition (R103). -/
inductive Format where
  | cmd
  | step (arm : Arm)
  deriving DecidableEq, Repr

/-- Why bytes are no word of a format. -/
inductive DecodeError where
  /-- There is no byte. -/
  | noByte
  /-- A step word with bits above bit 2 set: the dispatch word has three bits (R103). -/
  | notAStepWord
  /-- PHASE = 00: the engine is idle and has no step (R103). -/
  | idle
  /-- PHASE = 11: unreachable (R103). -/
  | unreachable
  /-- PHASE = 10 with IDX > NPIX: neither arm's condition holds (R103, R31). -/
  | noArm
  deriving DecidableEq, Repr

/-- The command word (R101): total on two bits. -/
def decodeCmd (op : BitVec 2) : Instr :=
  if op = 0b00#2 then .nop
  else if op = 0b01#2 then .encode
  else if op = 0b10#2 then .decode
  else .reservedOp3

/-- The step dispatch word `PHASE ++ MODE` (R103). -/
def decodeStep (arm : Arm) (word : BitVec 3) : Except DecodeError Instr :=
  if word = 0b010#3 then .ok .encCheck
  else if word = 0b011#3 then .ok .decCheck
  else if word = 0b100#3 then
    match arm with
    | .pixel => .ok .encStepPixel
    | .last => .ok .encStepEnd
    | .beyond => .error .noArm
  else if word = 0b101#3 then
    match arm with
    | .pixel => .ok .decStepPixel
    | .last => .ok .decStepEnd
    | .beyond => .error .noArm
  else if word = 0b000#3 ∨ word = 0b001#3 then .error .idle
  else .error .unreachable

/-- Decode one word of a format from the front of a list of bytes, giving the operation and the bytes after it. Bits above bit 1
of a command word are ignored (R105). -/
def decode : Format → List Byte → Except DecodeError (Instr × List Byte)
  | _, [] => .error .noByte
  | .cmd, b :: rest => .ok (decodeCmd (b.extractLsb' 0 2), rest)
  | .step arm, b :: rest =>
    if b.extractLsb' 3 5 = 0#5 then
      match decodeStep arm (b.extractLsb' 0 3) with
      | .ok i => .ok (i, rest)
      | .error e => .error e
    else .error .notAStepWord

/-- The encoder: an operation's format and word, written from R101 and R103; `none` for the rows that have no bit pattern. The two
checks have no arm condition ("always" in the table); the encoder writes `pixel` for it and `decode` ignores it. -/
def encode : Instr → Option (Format × List Byte)
  | .nop => some (.cmd, [0b00#8])
  | .encode => some (.cmd, [0b01#8])
  | .decode => some (.cmd, [0b10#8])
  | .reservedOp3 => some (.cmd, [0b11#8])
  | .encCheck => some (.step .pixel, [0b010#8])
  | .decCheck => some (.step .pixel, [0b011#8])
  | .encStepPixel => some (.step .pixel, [0b100#8])
  | .encStepEnd => some (.step .last, [0b100#8])
  | .decStepPixel => some (.step .pixel, [0b101#8])
  | .decStepEnd => some (.step .last, [0b101#8])
  | .positions _ _ => none
  | .next => none
  | .readbit _ => none
  | .writebit _ _ => none
  | .muxsel _ _ => none
  | .frame _ => none
  | .framebit _ => none
  | .unframe _ => none
  | .wr _ _ => none
  | .rd _ => none
  | .start _ => none
  | .wait => none
  | .fill _ => none
  | .drain _ => none

/-- How a bare table word is read when only its number is given. The table's CMD rows and STEP rows share the numbers 2 and 3, and
the two arms of a step share one number; a word of three bits is a step word, any other word below 4 a command word, 4 and 5 step
words, and the pixel arm is taken (DESIGN CHOICE, log 11). -/
def tableFormat (nbits w : Nat) : Option Format :=
  if nbits = 0 ∨ 8 ≤ w then none
  else if nbits = 3 ∨ 4 ≤ w then some (.step .pixel)
  else some .cmd

/-- The operation the decoder reads from a table word (numbered as spec/opcode_table.json numbers it). -/
def decodeTableWord (nbits w : Nat) : Option Instr :=
  match tableFormat nbits w with
  | none => none
  | some f =>
    match decode f [BitVec.ofNat 8 w] with
    | .ok (i, _) => some i
    | .error _ => none

/-- The operation a host transaction is. -/
def hostInstr : HostOp → Instr
  | .wr reg value => .wr reg value
  | .rd reg => .rd reg
  | .start op => .start op
  | .wait => .wait
  | .fill f => .fill f
  | .drain d => .drain d

end Sys2Proof
end

