-- ==== Sys2Proof/Machine/State.lean ====
section
/-! DEFINITION. The state of one LSBU (spec/10_state.md R20), the reasons a step stops, and the state after reset (R37). -/

namespace Sys2Proof.Machine

/-- A memory of whole elements, indexed from 0 (spec/20_memory.md R60): the elements written since reset, strictly rising in
their index. An unlisted element has no value of its own: a read of it draws a free value (R62, U1; log 3). -/
abbrev Memory (α : Type) := List (Nat × α)

/-- The canonical form: strictly rising indices. (No listed element can equal "what an unlisted one reads as", since that is no
value.) -/
abbrev Memory.wf {α : Type} (m : Memory α) : Prop := m.Pairwise fun a b => a.1 < b.1

/-- A decision the host takes inside a pseudo-command, on what it was last given (spec/44_host_commands.md R207, R208; log 2). -/
inductive HostTest where
  /-- `encode`, after `s <- RD STATUS`: unload the grid of `w` × `h`, or take the error (R207). -/
  | encodeResult (w h : Nat)
  /-- `decode`, after `s <- RD STATUS`: ask for OUT_LEN, or take NotFound (R208). -/
  | decodeResult
  /-- `decode`, after `n <- RD OUT_LEN`: unload `n` bytes of TXT. -/
  | decodeText
  /-- `decode`, after the DRAIN: the bytes become characters. -/
  | decodeChars
  deriving DecidableEq, Repr

/-- One entry of the schedule: which agent moves, and what it does (log 2). -/
inductive Move where
  /-- The engine takes the step its dispatch word selects, if any. -/
  | engine
  /-- The host performs a transaction (R200). -/
  | host (op : HostOp)
  /-- The host gives the command word `w` and the whole command it selects runs, a synchronous call (R160, R180). -/
  | call (w : Byte)
  /-- The host decides how a pseudo-command goes on; the block is not involved. -/
  | test (d : HostTest)
  /-- Reset is asserted (spec/70_reset_and_hazards.md R250). -/
  | reset
  deriving DecidableEq, Repr

/-- What the last operation that returns something returned to its caller (log 5). -/
inductive Answer where
  | none
  /-- RD and WAIT: a register's value. -/
  | value (n : Nat)
  /-- DRAIN of a pixel memory. -/
  | pixels (ps : List Pixel)
  /-- DRAIN of a byte memory. -/
  | bytes (bs : List Byte)
  /-- POSITIONS. -/
  | positions (ps : List (Nat × Nat))
  /-- READBIT, FRAMEBIT. -/
  | bit (b : Bool)
  /-- WRITEBIT. -/
  | pixel (p : Pixel)
  /-- MUXSEL. -/
  | source (m : MuxSource)
  /-- FRAME. -/
  | stream (bits : Bitstream)
  /-- UNFRAME; `Option.none` is NotFound. -/
  | text (t : Option (List Byte))
  /-- The pseudo-commands `encode` and `decode`: the error they end with, as its code in STATUS.ERR (R207, R208). -/
  | error (code : BitVec 2)
  /-- The pseudo-command `decode`: the text, as code points (R208). -/
  | chars (cs : List Nat)
  deriving DecidableEq, Repr

/-- The three error kinds of a command (spec/60_exceptions.md R220): results in STATUS, not machine faults (R229). -/
inductive ErrorKind where
  | invalidInput
  | capacityExceeded
  | notFound
  deriving DecidableEq, Repr

/-- Why the machine stops with a fault. -/
inductive Fault where
  /-- Raised by every access to an element of a pixel memory at or above CAP_PIX: "the access to a missing element is outside this
  spec" (R71). Safe: the model stops where the spec says nothing. -/
  | noPixelElement (S : PixelSpace) (i : Nat)
  /-- Raised by every access to an element of a byte memory at or above CAP_PAY or CAP_TXT (R71). Safe. -/
  | noByteElement (S : ByteSpace) (i : Nat)
  /-- Raised by `step` when the engine is to move in a control state the spec calls unreachable: PHASE = 11 (R28) or PHASE = RUN
  with IDX > NPIX (R31). Safe: no run from reset meets it; log 15. -/
  | unreachableControl (e : DecodeError)
  deriving DecidableEq, Repr

/-- Why an operation has no meaning. -/
inductive Refusal where
  /-- Only in exec's arms: an operation with no meaning yet. Safe. -/
  | notModelled (mnemonic : String)
  /-- Raised by FILL and DRAIN while BUSY = 1: "This spec gives such a run no meaning" (R258, U2). It errs toward proving only
  if a real host does it: unsafe there, as D15 says; log 13. -/
  | hostMoveWhileBusy
  /-- Raised by START, WR CMD, ENCODE and DECODE when a memory is smaller than the command's index range: "a model refuses the
  START" (R71, U5). Safe. -/
  | memoryTooSmall
  /-- Raised by an engine step outside the condition under which it is enabled (R166 to R168, R186, R187, R189): there the engine
  has no such step. Safe; log 14. -/
  | stepNotEnabled
  /-- Raised by NEXT when its precondition IDX < NPIX fails (R123). Safe; log 14. -/
  | nextPastEnd
  /-- Raised by `step` on a host transaction whose operands no element or register can hold (WellFormed.lean). Safe; log 14. -/
  | illFormed
  /-- Raised by `step` when a host's decision stands in the schedule and the host was last given nothing it can decide on; the
  pseudo-commands never schedule it so. Safe; log 14. -/
  | nothingReturned
  deriving DecidableEq, Repr

/-- The state of one LSBU. Registers whose width is a parameter are naturals (R10), bounded by the invariant of Safety.lean. -/
structure State where
  /-- The parameters (R8, D22); no step changes them. -/
  par : Params
  /-- WIDTH (R24). -/
  width : Nat
  /-- HEIGHT (R25). -/
  height : Nat
  /-- LEN (R26). -/
  len : Nat
  /-- OUT_LEN (R27). -/
  outLen : Nat
  /-- STATUS.DONE (R23). -/
  done : BitVec 1
  /-- STATUS.ERR (R23). -/
  err : BitVec 2
  /-- PHASE: 00 IDLE, 01 CHECK, 10 RUN, 11 never reached (R28). STATUS.BUSY is PHASE ≠ IDLE and has no other home. -/
  phase : BitVec 2
  /-- MODE: 0 ENCODE, 1 DECODE (R28). -/
  mode : BitVec 1
  /-- W_L (R29). -/
  wL : Nat
  /-- H_L (R29). -/
  hL : Nat
  /-- LEN_L (R29). -/
  lenL : Nat
  /-- NPIX (R29). -/
  npix : Nat
  /-- NBITS (R29). -/
  nbits : Nat
  /-- IDX (R30). -/
  idx : Nat
  /-- X (R30). -/
  x : Nat
  /-- Y (R30). -/
  y : Nat
  /-- SHREG (R32). -/
  shreg : Byte
  /-- BITCNT (R32). -/
  bitcnt : BitVec 3
  /-- PREV (R32). -/
  prev : Byte
  /-- NGRP (R32). -/
  ngrp : Nat
  /-- PIXIN (R35). -/
  pixin : List (Nat × Pixel)
  /-- PIXOUT (R35). -/
  pixout : List (Nat × Pixel)
  /-- PAY (R35). -/
  pay : List Host.Cell
  /-- TXT (R35). -/
  txt : List Host.Cell
  /-- The model's own: the schedule and the host's pending transactions (log 2). -/
  moves : List Move
  /-- The model's own: what the last operation returned (log 5). -/
  answer : Answer
  /-- The model's own: how many free values have been drawn (log 3). -/
  draws : Nat
  /-- The model's own: TXT indices whose listed byte is not promised to the host (U3; log 6). -/
  stale : List Nat
  deriving DecidableEq, Repr

/-- The state after reset (R37, R250): PHASE = IDLE, STATUS = 0000, the host's registers 0, the memories unspecified. The working
registers, which the spec leaves unspecified, hold 0 (DESIGN CHOICE, log 1): START writes every one of them before any read (R38). -/
def State.reset : State :=
  { par := Params.defaults
    width := 0, height := 0, len := 0, outLen := 0, done := 0#1, err := 0b00#2
    phase := 0b00#2, mode := 0#1, wL := 0, hL := 0, lenL := 0, npix := 0, nbits := 0
    idx := 0, x := 0, y := 0, shreg := 0#8, bitcnt := 0#3, prev := 0#8, ngrp := 0
    pixin := [], pixout := [], pay := [], txt := []
    moves := [], answer := .none, draws := 0, stale := [] }

end Sys2Proof.Machine
end

