-- ==== Sys2Proof/Machine/Flags.lean ====
section
/-! DEFINITION. The flags and conditions: STATUS (spec/10_state.md R23, R33), the outcome codes (spec/60_exceptions.md R221 to
R223), the verdict of ENCODE's validation (spec/42_encoder.md R161, R162), the sentinel condition (spec/43_decoder.md R188). -/

namespace Sys2Proof.Machine

/-- STATUS.BUSY: 1 exactly when PHASE ≠ IDLE (R28). -/
def busyBit (s : State) : BitVec 1 := if s.phase = 0b00#2 then 0#1 else 1#1

/-- The status word `ERR[3:2] ++ DONE ++ BUSY` (R23, R102). -/
def statusWord (s : State) : BitVec 4 := s.err ++ s.done ++ busyBit s

/-- The code of an error kind in STATUS.ERR (R221 to R223). -/
def errCode : ErrorKind → BitVec 2
  | .invalidInput => 0b01#2
  | .capacityExceeded => 0b10#2
  | .notFound => 0b11#2

/-- The verdict of ENCODE's validation on the latched operands: InvalidInput is checked first (R226), then CapacityExceeded; both on
exact naturals (R10). -/
def encodeVerdict (s : State) : Option ErrorKind :=
  if s.lenL = 0 ∨ s.wL = 0 ∨ s.hL = 0 then some .invalidInput
  else if s.npix < s.nbits then some .capacityExceeded
  else none

/-- The sentinel condition of GROUP_COMPLETE: at least one group before this one, that one 0xFF and this one 0xFE (R188, R96). It is
no stored flag (R33). -/
abbrev SentinelMatch (s : State) (v : Byte) : Prop := 1 ≤ s.ngrp ∧ s.prev = 0xFF#8 ∧ v = 0xFE#8

end Sys2Proof.Machine
end

