-- ==== Sys2Proof/Machine/Ops.lean ====
section
/-! DEFINITION. The operations every meaning is built from: element access (spec/20_memory.md R62), the free draws, the end of a
command (spec/60_exceptions.md R224, R225), the start of one (spec/44_host_commands.md R203), reset (spec/70_reset_and_hazards.md
R250). -/

namespace Sys2Proof.Machine

/-- The element listed at an index, if any. -/
def memGet {α : Type} : Memory α → Nat → Option α
  | [], _ => none
  | (j, v) :: m, i => if j = i then some v else memGet m i

/-- Replace the element at an index and no other (R62), keeping the list rising. -/
def memSet {α : Type} : Memory α → Nat → α → Memory α
  | [], i, v => [(i, v)]
  | (j, w) :: m, i, v =>
    if i < j then (i, v) :: (j, w) :: m
    else if i = j then (i, v) :: m
    else (j, w) :: memSet m i v

/-- A platform capacity covers `n` elements; with no bound stated it covers every number (R71). -/
def capCovers : Option Nat → Nat → Bool
  | none, _ => true
  | some c, n => decide (n ≤ c)

/-- The pixel memory a space names. -/
def pixelMem : PixelSpace → State → Memory Pixel
  | .pixin, s => s.pixin
  | .pixout, s => s.pixout

/-- The byte memory a space names. -/
def byteMem : ByteSpace → State → Memory Byte
  | .pay, s => s.pay
  | .txt, s => s.txt

/-- The capacity of a byte memory (D22). -/
def byteCap : ByteSpace → Params → Option Nat
  | .pay, par => par.capPay
  | .txt, par => par.capTxt

/-- Draw a pixel (U1): any pixel that fits its element. -/
def drawPixel (s : State) : Pixel × State :=
  ({ Config.freePixel s.draws with x := (Config.freePixel s.draws).x % 2 ^ s.par.xch }, { s with draws := s.draws + 1 })

/-- Draw a byte (U1, U3). -/
def drawByte (s : State) : Byte × State := (Config.freeByte s.draws, { s with draws := s.draws + 1 })

/-- Draw a bit (R143 outside its domain). -/
def drawBit (s : State) : Bool × State := (Config.freeBit s.draws, { s with draws := s.draws + 1 })

/-- `MemRead(S:i, 1)` of a pixel memory: the element last written, or any value (R62). -/
def readPixel (S : PixelSpace) (i : Nat) (s : State) : Except Fault (Pixel × State) :=
  if capCovers s.par.capPix (i + 1) then
    match memGet (pixelMem S s) i with
    | some p => .ok (p, s)
    | none => .ok (drawPixel s)
  else .error (.noPixelElement S i)

/-- `MemRead(S:i, 1)` of a byte memory (R62). -/
def readByte (S : ByteSpace) (i : Nat) (s : State) : Except Fault (Byte × State) :=
  if capCovers (byteCap S s.par) (i + 1) then
    match memGet (byteMem S s) i with
    | some b => .ok (b, s)
    | none => .ok (drawByte s)
  else .error (.noByteElement S i)

/-- The state with one pixel element replaced. -/
def setPixel (S : PixelSpace) (i : Nat) (p : Pixel) (s : State) : State :=
  match S with
  | .pixin => { s with pixin := memSet s.pixin i p }
  | .pixout => { s with pixout := memSet s.pixout i p }

/-- The state with one byte element replaced. -/
def setByte (S : ByteSpace) (i : Nat) (b : Byte) (s : State) : State :=
  match S with
  | .pay => { s with pay := memSet s.pay i b }
  | .txt => { s with txt := memSet s.txt i b }

/-- `MemWrite(S:i, 1, p)` of a pixel memory (R62). -/
def writePixel (S : PixelSpace) (i : Nat) (p : Pixel) (s : State) : Except Fault State :=
  if capCovers s.par.capPix (i + 1) then .ok (setPixel S i p s) else .error (.noPixelElement S i)

/-- `MemWrite(S:i, 1, b)` of a byte memory (R62). -/
def writeByte (S : ByteSpace) (i : Nat) (b : Byte) (s : State) : Except Fault State :=
  if capCovers (byteCap S s.par) (i + 1) then .ok (setByte S i b s) else .error (.noByteElement S i)

/-- An operation's outcome from its result. -/
def toOutcome : Except Fault State → Host.Outcome State Fault Refusal
  | .ok s => .next s
  | .error f => .fault f

/-- `raise E()` (R224): ERR, DONE and PHASE are written and nothing else (PIXOUT too keeps what it held: log 10). -/
def raiseError (e : ErrorKind) (s : State) : State := { s with err := errCode e, done := 1#1, phase := 0b00#2 }

/-- `complete(OK)` (R225). -/
def completeOk (s : State) : State := { s with err := 0b00#2, done := 1#1, phase := 0b00#2 }

/-- After a DECODE, the TXT elements from index `n` on are not part of the result: a host read of one is any value (R66, R190, U3).
The bytes the engine stored stay stored (R188); only the promise is withdrawn (log 6). -/
def withdrawText (n : Nat) (s : State) : State :=
  { s with stale := (s.txt.map Prod.fst).filter fun i => decide (n ≤ i) }

/-- Record what the operation returned (log 5). -/
def giveAnswer (a : Answer) (s : State) : State := { s with answer := a }

/-- The memories cover the index range of the command in `mode`, for the operands now in WIDTH, HEIGHT and LEN (R71, D22). -/
def capacitiesCover (mode : BitVec 1) (s : State) : Bool :=
  capCovers s.par.capPix (s.width * s.height) &&
    (if mode = 0#1 then capCovers s.par.capPay s.len else capCovers s.par.capTxt (s.width * s.height / 8))

/-- What a START that is not ignored writes (R203), all at once: every working register, OUT_LEN and STATUS (R38). -/
def latch (mode : BitVec 1) (s : State) : State :=
  { s with
    mode := mode
    wL := s.width, hL := s.height, lenL := s.len
    npix := s.width * s.height, nbits := 8 * s.len + 16
    idx := 0, x := 0, y := 0
    shreg := 0#8, bitcnt := 0#3, prev := 0#8, ngrp := 0
    outLen := 0, done := 0#1, err := 0b00#2
    phase := 0b01#2 }

/-- START of the command in `mode` (R203): ignored while a command runs; refused beyond the capacities (R71, U5). -/
def startCommand (mode : BitVec 1) (s : State) : Host.Outcome State Fault Refusal :=
  if s.phase ≠ 0b00#2 then .next s
  else if capacitiesCover mode s then .next (latch mode s)
  else .refused .memoryTooSmall

/-- `START(op)` (R203): NOP and the reserved word do nothing. -/
def startOp (op : BitVec 2) (s : State) : Host.Outcome State Fault Refusal :=
  if op = 0b01#2 then startCommand 0#1 s
  else if op = 0b10#2 then startCommand 1#1 s
  else .next s

/-- Reset as an event (R250): the values of R37; a command that was running ends without an outcome; PIXIN and PAY are never changed;
PIXOUT and TXT read as any value afterwards (U4). The working registers are unspecified and keep what they held (log 7). -/
def assertReset (s : State) : State :=
  { s with
    width := 0, height := 0, len := 0, outLen := 0, done := 0#1, err := 0b00#2, phase := 0b00#2
    pixout := [], txt := [], stale := [] }

end Sys2Proof.Machine
end

