-- ==== Sys2Proof/Machine/Operands.lean ====
section
/-! DEFINITION. Operand forms: register numbers (spec/10_state.md R21), the pixel word (spec/30_encoding.md R90), bytes to bits and
bits to bytes (R94, R97), the row-major index (spec/20_memory.md R61), the element lists of FILL and DRAIN
(spec/44_host_commands.md R205). -/

namespace Sys2Proof.Machine

/-- The host's read of a register number (R202): CMD and the numbers from 6 on read as 0. -/
def readReg (reg : Nat) (s : State) : Nat :=
  match reg with
  | 1 => (statusWord s).toNat
  | 2 => s.width
  | 3 => s.height
  | 4 => s.len
  | 5 => s.outLen
  | _ => 0

/-- The host's write of a register number (R201): CMD starts a command with the low two bits (R105), WIDTH, HEIGHT and LEN keep the
low bits that fit (R24, U7), every other number ignores the write. -/
def writeReg (reg value : Nat) (s : State) : Host.Outcome State Fault Refusal :=
  match reg with
  | 0 => startOp (BitVec.ofNat 2 value) s
  | 2 => .next { s with width := value % 2 ^ s.par.dimw }
  | 3 => .next { s with height := value % 2 ^ s.par.dimw }
  | 4 => .next { s with len := value % 2 ^ s.par.lenw }
  | _ => .next s

/-- The pixel word `X ++ R ++ G ++ B` (R90). -/
def pixelWord (xch : Nat) (p : Pixel) : BitVec (xch + 8 + 8 + 8) := BitVec.ofNat xch p.x ++ p.r ++ p.g ++ p.b

/-- The pixel of a word (R90). -/
def pixelOfWord (xch : Nat) (w : BitVec (xch + 8 + 8 + 8)) : Pixel :=
  { x := (w.extractLsb' 24 xch).toNat
    r := w.extractLsb' 16 8
    g := w.extractLsb' 8 8
    b := w.extractLsb' 0 8 }

/-- Byte to bits: bit 7 first, bit 0 last (R94). -/
def byteBits (t : Byte) : Bitstream :=
  [t.getLsbD 7, t.getLsbD 6, t.getLsbD 5, t.getLsbD 4, t.getLsbD 3, t.getLsbD 2, t.getLsbD 1, t.getLsbD 0]

/-- One bit as a number. -/
def bitVal (b : Bool) : Nat := if b then 1 else 0

/-- Bits to byte: the value of a group, its first bit the highest (R97). -/
def groupValue (b0 b1 b2 b3 b4 b5 b6 b7 : Bool) : Byte :=
  BitVec.ofNat 8 (bitVal b0 * 128 + bitVal b1 * 64 + bitVal b2 * 32 + bitVal b3 * 16 + bitVal b4 * 8 + bitVal b5 * 4 +
    bitVal b6 * 2 + bitVal b7)

/-- The memory index of a position in a grid of width `w` (R61). -/
def elementIndex (w x y : Nat) : Nat := y * w + x

/-- The position of a memory index in a grid of width `w` (R61). -/
def positionOf (w i : Nat) : Nat × Nat := (i % w, i / w)

/-- Consecutive indices from `a`, one per value. -/
def placeFrom {α : Type} : Nat → List α → List (Nat × α)
  | _, [] => []
  | a, v :: vs => (a, v) :: placeFrom (a + 1) vs

/-- `n` consecutive indices from `a`. -/
def indicesFrom : Nat → Nat → List Nat
  | _, 0 => []
  | a, n + 1 => a :: indicesFrom (a + 1) n

/-- The elements a FILL form writes, in order (R205). -/
def fillElements {α : Type} : FillForm α → List (Nat × α)
  | .one i v => [(i, v)]
  | .range a b v => placeFrom a (List.replicate (b + 1 - a) v)
  | .list a vs => placeFrom a vs

/-- The indices a DRAIN form reads, in order (R205). -/
def drainIndices : DrainForm → List Nat
  | .one i => [i]
  | .range a b => indicesFrom a (b + 1 - a)

end Sys2Proof.Machine
end

