-- ==== Sys2Proof/Machine/Sequencer.lean ====
section
/-! DEFINITION. The Bit Sequencer and its mux (spec/40_bit_sequencer.md): POSITIONS, NEXT, READBIT, WRITEBIT, MUXSEL. -/

namespace Sys2Proof.Machine

/-- POSITIONS (R121): rows top to bottom, each left to right. -/
def positions (width height : Nat) : List (Nat × Nat) :=
  (List.range height).flatMap fun y => (List.range width).map fun x => (x, y)

/-- NEXT's action (R123). Its precondition gives `W_L ≥ 1`, so `X = W_L − 1` is `X + 1 = W_L`. -/
def advance (s : State) : State :=
  { s with
    idx := s.idx + 1
    x := if s.x + 1 = s.wL then 0 else s.x + 1
    y := if s.x + 1 = s.wL then s.y + 1 else s.y }

/-- READBIT (R124): `red & 1`. -/
def readBit (p : Pixel) : Bool := (p.r &&& 1#8) = 1#8

/-- WRITEBIT (R125): `(red & ~1) | bit`, the rest unchanged. -/
def writeBit (p : Pixel) (b : Bool) : Pixel := { p with r := (p.r &&& 0xFE#8) ||| (if b then 1#8 else 0#8) }

/-- MUXSEL (R127). -/
def muxSel (i n : Nat) : MuxSource :=
  if i < 8 * n then .payload
  else if i < 8 * n + 16 then .sentinel
  else .pass

/-- POSITIONS as an operation: it returns the sequence and touches nothing (R120, R121). -/
def execPositions (width height : Nat) (s : State) : Host.Outcome State Fault Refusal :=
  .next (giveAnswer (.positions (positions width height)) s)

/-- NEXT as an operation (R123), refused where its precondition fails. -/
def execNext (s : State) : Host.Outcome State Fault Refusal :=
  if s.idx < s.npix then .next (advance s) else .refused .nextPastEnd

/-- READBIT as an operation (R124). -/
def execReadbit (p : Pixel) (s : State) : Host.Outcome State Fault Refusal :=
  .next (giveAnswer (.bit (readBit p)) s)

/-- WRITEBIT as an operation (R125). -/
def execWritebit (p : Pixel) (b : Bool) (s : State) : Host.Outcome State Fault Refusal :=
  .next (giveAnswer (.pixel (writeBit p b)) s)

/-- MUXSEL as an operation (R127). -/
def execMuxsel (i n : Nat) (s : State) : Host.Outcome State Fault Refusal :=
  .next (giveAnswer (.source (muxSel i n)) s)

end Sys2Proof.Machine
end

