-- ==== Sys2Proof/Machine/Framer.lean ====
section
/-! DEFINITION. The Payload Framer (spec/41_payload_framer.md): FRAME, FRAMEBIT, UNFRAME. -/

namespace Sys2Proof.Machine

/-- The sentinel `q[0..15]`: fifteen 1s and a 0 (spec/30_encoding.md R95). -/
def sentinel : Bitstream := List.replicate 15 true ++ [false]

/-- FRAME (R141): the payload's bits, most significant first, then the sentinel. -/
def frame (t : List Byte) : Bitstream := t.flatMap byteBits ++ sentinel

/-- FRAMEBIT (R143): bit `i` of the frame of PAY, from LEN_L and at most one byte of PAY (read anew for each bit: log 17). At `i ≥ NBITS` it is undefined: a free
bit (log 9). -/
def frameBit (i : Nat) (s : State) : Except Fault (Bool × State) :=
  if s.nbits ≤ i then .ok (drawBit s)
  else if i < 8 * s.lenL then
    match readByte .pay (i / 8) s with
    | .ok (b, s') => .ok (b.getLsbD (7 - i % 8), s')
    | .error f => .error f
  else .ok (decide (i - 8 * s.lenL ≤ 14), s)

/-- UNFRAME (R144) with the text built so far: eight bits at a time; the text ends, its marker stripped, when its trailing two
groups are 0xFF and 0xFE; `none` is NotFound; a trailing partial group is discarded. -/
def unframeFrom (text : List Byte) : Bitstream → Option (List Byte)
  | b0 :: b1 :: b2 :: b3 :: b4 :: b5 :: b6 :: b7 :: rest =>
    if text.getLast? = some 0xFF#8 ∧ groupValue b0 b1 b2 b3 b4 b5 b6 b7 = 0xFE#8 then some text.dropLast
    else unframeFrom (text ++ [groupValue b0 b1 b2 b3 b4 b5 b6 b7]) rest
  | _ => none

/-- UNFRAME (R144). -/
def unframe (bits : Bitstream) : Option (List Byte) := unframeFrom [] bits

/-- FRAME as an operation (R141). -/
def execFrame (t : List Byte) (s : State) : Host.Outcome State Fault Refusal :=
  .next (giveAnswer (.stream (frame t)) s)

/-- FRAMEBIT as an operation (R143). -/
def execFramebit (i : Nat) (s : State) : Host.Outcome State Fault Refusal :=
  match frameBit i s with
  | .ok (b, s') => .next (giveAnswer (.bit b) s')
  | .error f => .fault f

/-- UNFRAME as an operation (R144): NotFound is a result value here. -/
def execUnframe (bits : Bitstream) (s : State) : Host.Outcome State Fault Refusal :=
  .next (giveAnswer (.text (unframe bits)) s)

end Sys2Proof.Machine
end

