-- ==== Sys2Proof/Machine/Decoder.lean ====
section
/-! DEFINITION. DECODE, the extractor (spec/43_decoder.md): the whole command (R180) and the engine's steps (R186 to R189). -/

namespace Sys2Proof.Machine

/-- The red low bits of `n` pixels of PIXIN from index `i` on (R180). -/
def readBits : Nat → Nat → State → Except Fault (Bitstream × State)
  | 0, _, s => .ok ([], s)
  | n + 1, i, s =>
    match readPixel .pixin i s with
    | .error f => .error f
    | .ok (p, s') =>
      match readBits n (i + 1) s' with
      | .ok (bits, s'') => .ok (readBit p :: bits, s'')
      | .error f => .error f

/-- Write a text to TXT from index `k` on (R180). -/
def writeText : Nat → List Byte → State → Except Fault State
  | _, [], s => .ok s
  | k, v :: vs, s =>
    match writeByte .txt k v s with
    | .ok s' => writeText (k + 1) vs s'
    | .error f => .error f

/-- DECODE on latched operands (R180): the whole bitstream, UNFRAME, then the text, OUT_LEN and the outcome. -/
def runDecode (s : State) : Except Fault State :=
  match readBits s.npix 0 s with
  | .error f => .error f
  | .ok (bits, s1) =>
    match unframe bits with
    | none => .ok (withdrawText 0 (raiseError .notFound s1))
    | some r =>
      match writeText 0 r s1 with
      | .error f => .error f
      | .ok s2 => .ok (withdrawText r.length (completeOk { s2 with outLen := r.length }))

/-- DECODE, the whole command (R180), as its word on CMD starts it: ignored while a command runs (R203), refused beyond the
capacities (R71). -/
def execDecode (s : State) : Host.Outcome State Fault Refusal :=
  if s.phase ≠ 0b00#2 then .next s
  else if capacitiesCover 1#1 s then toOutcome (runDecode (latch 1#1 s))
  else .refused .memoryTooSmall

/-- DEC_CHECK (R186): DECODE validates nothing. -/
def execDecCheck (s : State) : Host.Outcome State Fault Refusal :=
  if s.phase = 0b01#2 ∧ s.mode = 1#1 then .next { s with phase := 0b10#2 } else .refused .stepNotEnabled

/-- GROUP_COMPLETE (R188): the group is stored; on a match the marker is stripped and the command completes, otherwise the next
group begins. -/
def groupComplete (v : Byte) (s : State) : Except Fault State :=
  match writeByte .txt s.ngrp v s with
  | .error f => .error f
  | .ok s1 =>
    if SentinelMatch s v then
      .ok (withdrawText (s.ngrp - 1) (completeOk { s1 with outLen := s.ngrp - 1 }))
    else .ok { s1 with prev := v, ngrp := s.ngrp + 1, shreg := 0#8, bitcnt := 0#3 }

/-- The eight bits of SHREG with one bit shifted in at the low end (R187). -/
def shiftIn (shreg : Byte) (b : Bool) : Byte := (shreg <<< 1) ||| (if b then 1#8 else 0#8)

/-- DEC_STEP's pixel arm before NEXT (R187). -/
def decodePixel (s : State) : Except Fault State :=
  match readPixel .pixin s.idx s with
  | .error f => .error f
  | .ok (p, s1) =>
    if s.bitcnt = 7#3 then groupComplete (shiftIn s.shreg (readBit p)) s1
    else .ok { s1 with shreg := shiftIn s.shreg (readBit p), bitcnt := s.bitcnt + 1#3 }

/-- DEC_STEP, pixel arm (R187): NEXT unless the command has completed. -/
def execDecStepPixel (s : State) : Host.Outcome State Fault Refusal :=
  if s.phase = 0b10#2 ∧ s.mode = 1#1 ∧ s.idx < s.npix then
    match decodePixel s with
    | .error f => .fault f
    | .ok s' => if s'.phase = 0b00#2 then .next s' else .next (advance s')
  else .refused .stepNotEnabled

/-- DEC_STEP, end arm (R189). -/
def execDecStepEnd (s : State) : Host.Outcome State Fault Refusal :=
  if s.phase = 0b10#2 ∧ s.mode = 1#1 ∧ s.idx = s.npix then .next (withdrawText 0 (raiseError .notFound s))
  else .refused .stepNotEnabled

end Sys2Proof.Machine
end

