-- ==== Sys2Proof/Machine/Encoder.lean ====
section
/-! DEFINITION. ENCODE, the embedder (spec/42_encoder.md): the whole command (R160) and the engine's steps (R166 to R168). -/

namespace Sys2Proof.Machine

/-- What ENCODE does to the pixel of index `i`, the loop body of R160 and the pixel arm of R167 before NEXT: read PIXIN:i, write
PIXOUT:i with the frame bit in `R[0]` while `i < NBITS`, else unchanged. -/
def encodePixel (i : Nat) (s : State) : Except Fault State :=
  match readPixel .pixin i s with
  | .error f => .error f
  | .ok (p, s1) =>
    if i < s.nbits then
      match frameBit i s1 with
      | .error f => .error f
      | .ok (b, s2) => writePixel .pixout i (writeBit p b) s2
    else writePixel .pixout i p s1

/-- The pass over `n` pixels from index `i` on, in increasing order (R63, R64). -/
def encodePass : Nat → Nat → State → Except Fault State
  | 0, _, s => .ok s
  | n + 1, i, s =>
    match encodePixel i s with
    | .ok s' => encodePass n (i + 1) s'
    | .error f => .error f

/-- ENCODE on latched operands (R160): both checks before any memory access, then every pixel, then complete(OK). -/
def runEncode (s : State) : Except Fault State :=
  match encodeVerdict s with
  | some e => .ok (raiseError e s)
  | none =>
    match encodePass s.npix 0 s with
    | .ok s' => .ok (completeOk s')
    | .error f => .error f

/-- ENCODE, the whole command (R160), as its word on CMD starts it: ignored while a command runs (R203), refused beyond the
capacities (R71). -/
def execEncode (s : State) : Host.Outcome State Fault Refusal :=
  if s.phase ≠ 0b00#2 then .next s
  else if capacitiesCover 0#1 s then toOutcome (runEncode (latch 0#1 s))
  else .refused .memoryTooSmall

/-- ENC_CHECK (R166). -/
def execEncCheck (s : State) : Host.Outcome State Fault Refusal :=
  if s.phase = 0b01#2 ∧ s.mode = 0#1 then
    match encodeVerdict s with
    | some e => .next (raiseError e s)
    | none => .next { s with phase := 0b10#2 }
  else .refused .stepNotEnabled

/-- ENC_STEP, pixel arm (R167). -/
def execEncStepPixel (s : State) : Host.Outcome State Fault Refusal :=
  if s.phase = 0b10#2 ∧ s.mode = 0#1 ∧ s.idx < s.npix then
    match encodePixel s.idx s with
    | .ok s' => .next (advance s')
    | .error f => .fault f
  else .refused .stepNotEnabled

/-- ENC_STEP, end arm (R168). -/
def execEncStepEnd (s : State) : Host.Outcome State Fault Refusal :=
  if s.phase = 0b10#2 ∧ s.mode = 0#1 ∧ s.idx = s.npix then .next (completeOk s) else .refused .stepNotEnabled

end Sys2Proof.Machine
end

