-- ==== Sys2Proof/Machine/HostTransactions.lean ====
section
/-! DEFINITION. The command words that do nothing (spec/30_encoding.md R105) and the host's transactions
(spec/44_host_commands.md R201 to R206), with the pseudo-commands of R207 and R208. -/

namespace Sys2Proof.Machine

/-- NOP (R105, R203): does nothing. -/
def execNop (s : State) : Host.Outcome State Fault Refusal := .next s

/-- The reserved command word: "starts nothing and changes no state, exactly like NOP" (R105). -/
def execReservedOp3 (s : State) : Host.Outcome State Fault Refusal := .next s

/-- WR (R201). -/
def execWr (reg value : Nat) (s : State) : Host.Outcome State Fault Refusal := writeReg reg value s

/-- RD (R202): the value goes to the host; nothing else changes. -/
def execRd (reg : Nat) (s : State) : Host.Outcome State Fault Refusal :=
  .next (giveAnswer (.value (readReg reg s)) s)

/-- START (R203). -/
def execStart (op : BitVec 2) (s : State) : Host.Outcome State Fault Refusal := startOp op s

/-- WAIT (R204): one RD STATUS; while BUSY = 1 the engine takes a step and the host polls again (the fairness of R266; log 2). -/
def execWait (s : State) : Host.Outcome State Fault Refusal :=
  let s1 := giveAnswer (.value (statusWord s).toNat) s
  if s.phase = 0b00#2 then .next s1 else .next { s1 with moves := .engine :: .host .wait :: s1.moves }

/-- A host write of a byte element: a TXT element the host has written holds what it wrote (U3; log 6). -/
def hostWriteByte (S : ByteSpace) (i : Nat) (b : Byte) (s : State) : Except Fault State :=
  match S, writeByte S i b s with
  | .txt, .ok s' => .ok { s' with stale := s'.stale.filter fun k => decide (k ≠ i) }
  | _, r => r

/-- FILL's pixel elements, in order (R206). -/
def fillPixels (S : PixelSpace) : List (Nat × Pixel) → State → Except Fault State
  | [], s => .ok s
  | (i, p) :: es, s =>
    match writePixel S i p s with
    | .ok s' => fillPixels S es s'
    | .error f => .error f

/-- FILL's byte elements, in order (R206). -/
def fillBytes (S : ByteSpace) : List (Nat × Byte) → State → Except Fault State
  | [], s => .ok s
  | (i, b) :: es, s =>
    match hostWriteByte S i b s with
    | .ok s' => fillBytes S es s'
    | .error f => .error f

/-- FILL on an idle block. -/
def runFill : FillOp → State → Except Fault State
  | .pixels S f, s => fillPixels S (fillElements f) s
  | .bytes S f, s => fillBytes S (fillElements f) s

/-- FILL (R206), allowed only while BUSY = 0 (R258). -/
def execFill (f : FillOp) (s : State) : Host.Outcome State Fault Refusal :=
  if s.phase = 0b00#2 then toOutcome (runFill f s) else .refused .hostMoveWhileBusy

/-- A host read of a byte element: any value where TXT holds no promised byte (U3; log 6), else MemRead. -/
def hostReadByte (S : ByteSpace) (i : Nat) (s : State) : Except Fault (Byte × State) :=
  match S with
  | .pay => readByte .pay i s
  | .txt =>
    match readByte .txt i s with
    | .ok r => if i ∈ s.stale then .ok (drawByte s) else .ok r
    | .error f => .error f

/-- DRAIN's pixel elements, in order (R206). -/
def drainPixels (S : PixelSpace) : List Nat → State → Except Fault (List Pixel × State)
  | [], s => .ok ([], s)
  | i :: is, s =>
    match readPixel S i s with
    | .error f => .error f
    | .ok (p, s') =>
      match drainPixels S is s' with
      | .ok (ps, s'') => .ok (p :: ps, s'')
      | .error f => .error f

/-- DRAIN's byte elements, in order (R206). -/
def drainBytes (S : ByteSpace) : List Nat → State → Except Fault (List Byte × State)
  | [], s => .ok ([], s)
  | i :: is, s =>
    match hostReadByte S i s with
    | .error f => .error f
    | .ok (b, s') =>
      match drainBytes S is s' with
      | .ok (bs, s'') => .ok (b :: bs, s'')
      | .error f => .error f

/-- DRAIN on an idle block. -/
def runDrain : DrainOp → State → Except Fault State
  | .pixels S f, s =>
    match drainPixels S (drainIndices f) s with
    | .ok (ps, s') => .ok (giveAnswer (.pixels ps) s')
    | .error e => .error e
  | .bytes S f, s =>
    match drainBytes S (drainIndices f) s with
    | .ok (bs, s') => .ok (giveAnswer (.bytes bs) s')
    | .error e => .error e

/-- DRAIN (R206), allowed only while BUSY = 0 (R258). -/
def execDrain (d : DrainOp) (s : State) : Host.Outcome State Fault Refusal :=
  if s.phase = 0b00#2 then toOutcome (runDrain d s) else .refused .hostMoveWhileBusy

/-- The host's map from a character's code point to a byte (spec/30_encoding.md R92): `c mod 256` (log 12). -/
def charByte (c : Nat) : Byte := BitVec.ofNat 8 c

/-- The host's map from a byte to a character's code point: the code point of the same number (R92). -/
def byteChar (v : Byte) : Nat := v.toNat

/-- The ERR field `s[3:2]` of a STATUS value the host has read (R23). -/
def errField (v : Nat) : BitVec 2 := (BitVec.ofNat 4 v).extractLsb' 2 2

/-- `0 .. n−1` as a form of DRAIN; for `n = 0` a range that names no element (log 18). -/
def drainFirst (n : Nat) : DrainForm := if n = 0 then .range 1 0 else .range 0 (n - 1)

/-- Put moves before the rest of the schedule. -/
def schedule (ms : List Move) (s : State) : State := { s with moves := ms ++ s.moves }

/-- The pseudo-command `encode(carrier, w, h, text) → grid | error` (R207); `text` is a list of code points. Its result is the answer
when its last move is done: `.pixels` with the grid or `.error`. -/
def encodeCall (carrier : List Pixel) (w h : Nat) (text : List Nat) : List Move :=
  [.host (.wr 2 w), .host (.wr 3 h), .host (.wr 4 text.length),
   .host (.fill (.bytes .pay (.list 0 (text.map charByte)))),
   .host (.fill (.pixels .pixin (.list 0 carrier))),
   .host (.wr 0 1), .host .wait, .host (.rd 1), .test (.encodeResult w h)]

/-- The pseudo-command `decode(grid, w, h) → text | error` (R208). Its result is the answer when its last move is done: `.chars` with
the text or `.error`. -/
def decodeCall (grid : List Pixel) (w h : Nat) : List Move :=
  [.host (.wr 2 w), .host (.wr 3 h), .host (.fill (.pixels .pixin (.list 0 grid))),
   .host (.wr 0 2), .host .wait, .host (.rd 1), .test .decodeResult]

/-- The host's decisions (R207, R208), each on what it was last given: `s[3:2] = 00` or not; OUT_LEN; the bytes of the text. -/
def hostTest (d : HostTest) (s : State) : Host.Outcome State Fault Refusal :=
  match d, s.answer with
  | .encodeResult w h, .value v =>
    if errField v = 0b00#2 then .next (schedule [.host (.drain (.pixels .pixout (drainFirst (w * h))))] s)
    else .next (giveAnswer (.error (errField v)) s)
  | .decodeResult, .value v =>
    if errField v = 0b00#2 then .next (schedule [.host (.rd 5), .test .decodeText] s)
    else .next (giveAnswer (.error (errCode .notFound)) s)
  | .decodeText, .value n => .next (schedule [.host (.drain (.bytes .txt (drainFirst n))), .test .decodeChars] s)
  | .decodeChars, .bytes bs => .next (giveAnswer (.chars (bs.map byteChar)) s)
  | _, _ => .refused .nothingReturned

end Sys2Proof.Machine
end

