-- ==== Sys2Proof/Machine/Dispatch.lean ====
section
/-! DEFINITION. One arm per operation of spec/opcode_table.json, each a direct call of its meaning. -/

namespace Sys2Proof.Machine

def exec (i : Instr) (s : State) : Host.Outcome State Fault Refusal :=
  match i with
  | .nop => Sys2Proof.Machine.execNop s
  | .encode => Sys2Proof.Machine.execEncode s
  | .decode => Sys2Proof.Machine.execDecode s
  | .reservedOp3 => Sys2Proof.Machine.execReservedOp3 s
  | .encCheck => Sys2Proof.Machine.execEncCheck s
  | .decCheck => Sys2Proof.Machine.execDecCheck s
  | .encStepPixel => Sys2Proof.Machine.execEncStepPixel s
  | .encStepEnd => Sys2Proof.Machine.execEncStepEnd s
  | .decStepPixel => Sys2Proof.Machine.execDecStepPixel s
  | .decStepEnd => Sys2Proof.Machine.execDecStepEnd s
  | .positions width height => Sys2Proof.Machine.execPositions width height s
  | .next => Sys2Proof.Machine.execNext s
  | .readbit p => Sys2Proof.Machine.execReadbit p s
  | .writebit p b => Sys2Proof.Machine.execWritebit p b s
  | .muxsel k n => Sys2Proof.Machine.execMuxsel k n s
  | .frame t => Sys2Proof.Machine.execFrame t s
  | .framebit k => Sys2Proof.Machine.execFramebit k s
  | .unframe bits => Sys2Proof.Machine.execUnframe bits s
  | .wr reg value => Sys2Proof.Machine.execWr reg value s
  | .rd reg => Sys2Proof.Machine.execRd reg s
  | .start op => Sys2Proof.Machine.execStart op s
  | .wait => Sys2Proof.Machine.execWait s
  | .fill f => Sys2Proof.Machine.execFill f s
  | .drain d => Sys2Proof.Machine.execDrain d s

end Sys2Proof.Machine
end

