-- ==== Sys2Proof/Machine/Fetch.lean ====
section
/-! DEFINITION. What moves next (log 2): the head of the schedule, or the engine when nothing is scheduled; and the engine's step
dispatch (spec/30_encoding.md R103). -/

namespace Sys2Proof.Machine

/-- The dispatch word `PHASE ++ MODE` as the byte the decoder reads (R103). -/
def dispatchByte (s : State) : Byte := 0#5 ++ s.phase ++ s.mode

/-- The arm condition (R103). -/
def armOf (s : State) : Arm :=
  if s.idx < s.npix then .pixel else if s.idx = s.npix then .last else .beyond

/-- The operation a word of a format selects. -/
def fetchWord (f : Format) (bytes : List Byte) : Except DecodeError Instr :=
  match decode f bytes with
  | .ok (i, _) => .ok i
  | .error e => .error e

/-- The engine's next step, if it has one (R103). -/
def fetchEngine (s : State) : Except DecodeError Instr := fetchWord (.step (armOf s)) [dispatchByte s]

/-- The operation a move performs. -/
def fetchMove (m : Move) (s : State) : Except DecodeError Instr :=
  match m with
  | .engine => fetchEngine s
  | .host op => .ok (hostInstr op)
  | .call w => fetchWord .cmd [w]
  | .test _ => .error .noByte
  | .reset => .error .noByte

/-- The state with the table word `w` placed where the next step fetches it (log 11): a command word as a call at the head of the
schedule; a step word as the engine's turn with PHASE and MODE set, and for a pixel arm on a state with no pixel left a grid of
one pixel. -/
def placeWord (nbits w : Nat) (s : State) : State :=
  match tableFormat nbits w with
  | none => { s with moves := .engine :: s.moves, phase := 0b11#2 }
  | some .cmd => { s with moves := .call (BitVec.ofNat 8 w) :: s.moves }
  | some (.step _) =>
    let s1 := { s with
      moves := .engine :: s.moves
      phase := (BitVec.ofNat 3 w).extractLsb' 1 2
      mode := (BitVec.ofNat 3 w).extractLsb' 0 1 }
    if s.idx < s.npix then s1
    else { s1 with idx := 0, x := 0, y := 0, wL := 1, hL := 1, npix := 1 }

end Sys2Proof.Machine
end

