-- ==== Sys2Proof/Machine/Schedule.lean ====
section
/-! DEFINITION. The schedule: whose move is next and what it does (spec/00_scope.md R17, spec/30_encoding.md R103,
spec/70_reset_and_hazards.md R251, R266; log 2). -/

namespace Sys2Proof.Machine

/-- Perform what was fetched: run a well-formed operation; an idle engine does nothing (R103, R251); an engine in an unreachable
control state faults. -/
def perform (f : Except DecodeError Instr) (s : State) : Host.Outcome State Fault Refusal :=
  match f with
  | .ok i => if wellFormed s.par i then exec i s else .refused .illFormed
  | .error .idle => .next s
  | .error e => .fault (.unreachableControl e)

/-- The state with the head of the schedule taken away. -/
def popMove (s : State) : State := { s with moves := s.moves.tail }

/-- Take the head of the schedule away, then perform it; with nothing scheduled the engine moves. -/
def takeMove (s : State) : Host.Outcome State Fault Refusal :=
  match s.moves.head? with
  | none => perform (fetchEngine s) s
  | some .reset => .next (assertReset (popMove s))
  | some (.test d) => hostTest d (popMove s)
  | some m => perform (fetchMove m s) (popMove s)

end Sys2Proof.Machine
end

