-- ==== Sys2Proof/Machine/Step.lean ====
section
/-! DEFINITION. One step of the machine, and where a table word is placed so that the next step runs it. -/

namespace Sys2Proof.Machine

/-- One step: the next move of the schedule, or the engine's turn when nothing is scheduled (log 2). -/
def step (s : State) : Host.Outcome State Fault Refusal := takeMove s

/-- The state with a table word placed where `step` fetches its next operation (log 11). -/
def State.withFetchWord (s : State) (nbits w : Nat) : State := placeWord nbits w s

end Sys2Proof.Machine
end

