-- ==== Sys2Proof/Safety.lean ====
section
/-! DEFINITION. What claims are stated in: runs, the invariant of the machine (spec/10_state.md R23, R28 to R32, spec/20_memory.md
R71), premises on memories and payloads (spec/43_decoder.md R193), what two descriptions of a command agree on
(spec/42_encoder.md R170, spec/43_decoder.md R190). -/

namespace Sys2Proof

open Machine

/-- `k` steps, stopping at the first fault or refusal. -/
def runSteps : Nat → State → Host.Outcome State Fault Refusal
  | 0, s => .next s
  | k + 1, s =>
    match step s with
    | .next t => runSteps k t
    | .fault f => .fault f
    | .refused r => .refused r

/-- Every register is within its width (R22 to R32 with R8). -/
structure WidthsFit (s : State) : Prop where
  width : s.width < 2 ^ s.par.dimw
  height : s.height < 2 ^ s.par.dimw
  len : s.len < 2 ^ s.par.lenw
  outLen : s.outLen < 2 ^ s.par.lenw
  wL : s.wL < 2 ^ s.par.dimw
  hL : s.hL < 2 ^ s.par.dimw
  lenL : s.lenL < 2 ^ s.par.lenw
  npix : s.npix < 2 ^ s.par.idxw
  nbits : s.nbits < 2 ^ (s.par.lenw + 4)
  idx : s.idx < 2 ^ s.par.idxw
  x : s.x < 2 ^ s.par.dimw
  y : s.y < 2 ^ s.par.dimw
  ngrp : s.ngrp < 2 ^ s.par.lenw

/-- The four memories are in canonical form. -/
structure MemoriesCanonical (s : State) : Prop where
  pixin : Memory.wf s.pixin
  pixout : Memory.wf s.pixout
  pay : Memory.wf s.pay
  txt : Memory.wf s.txt

/-- Every pixel of a memory fits its element (R90). -/
def PixelsFit (par : Params) (m : Memory Pixel) : Prop := ∀ e ∈ m, e.2.Fits par

/-- STATUS holds one of the six words of R102: BUSY with DONE or ERR set never occurs, and ERR is 00 while DONE = 0 (R23). -/
abbrev StatusLegal (s : State) : Prop := (s.phase ≠ 0b00#2 → s.done = 0#1 ∧ s.err = 0b00#2) ∧ (s.done = 0#1 → s.err = 0b00#2)

/-- While a command runs the latched NPIX and NBITS are exact (R29) and OUT_LEN is the 0 START gave it (R27). -/
structure LatchedExact (s : State) : Prop where
  npix : s.npix = s.wL * s.hL
  nbits : s.nbits = 8 * s.lenL + 16
  outLen : s.outLen = 0

/-- While a command runs the memories cover its index range (R71). -/
structure CapacitiesHold (s : State) : Prop where
  pix : capCovers s.par.capPix s.npix = true
  pay : s.mode = 0#1 → capCovers s.par.capPay s.lenL = true
  txt : s.mode = 1#1 → capCovers s.par.capTxt (s.npix / 8) = true

/-- In CHECK nothing has moved since START (R203). -/
structure FreshlyStarted (s : State) : Prop where
  idx : s.idx = 0
  x : s.x = 0
  y : s.y = 0
  shreg : s.shreg = 0#8
  bitcnt : s.bitcnt = 0#3
  prev : s.prev = 0#8
  ngrp : s.ngrp = 0

/-- In RUN the counters name one position, and at the end of the pass X = 0, Y = H_L (R30, R31). -/
structure PassPosition (s : State) : Prop where
  bound : s.idx ≤ s.npix
  position : s.idx = elementIndex s.wL s.x s.y
  inside : s.idx < s.npix → s.x < s.wL ∧ s.y < s.hL
  atEnd : s.idx = s.npix → s.wL ≠ 0 → s.x = 0 ∧ s.y = s.hL

/-- ENCODE is in RUN only after validation has passed (R166). -/
structure EncodeValidated (s : State) : Prop where
  lenL : s.lenL ≠ 0
  wL : s.wL ≠ 0
  hL : s.hL ≠ 0
  fits : s.nbits ≤ s.npix

/-- DECODE's data path follows IDX (R187): BITCNT = IDX mod 8, NGRP = IDX div 8, and SHREG holds BITCNT bits. -/
structure DecodeProgress (s : State) : Prop where
  bitcnt : s.bitcnt.toNat = s.idx % 8
  ngrp : s.ngrp = s.idx / 8
  shreg : s.shreg.toNat < 2 ^ (s.idx % 8)

/-- The invariant of the machine. -/
structure Inv (s : State) : Prop where
  params : s.par.Ok
  widths : WidthsFit s
  canonical : MemoriesCanonical s
  pixinFit : PixelsFit s.par s.pixin
  pixoutFit : PixelsFit s.par s.pixout
  phase : s.phase ≠ 0b11#2
  status : StatusLegal s
  latched : s.phase ≠ 0b00#2 → LatchedExact s
  capacities : s.phase ≠ 0b00#2 → CapacitiesHold s
  fresh : s.phase = 0b01#2 → FreshlyStarted s
  pass : s.phase = 0b10#2 → PassPosition s
  validated : s.phase = 0b10#2 → s.mode = 0#1 → EncodeValidated s
  progress : s.phase = 0b10#2 → s.mode = 1#1 → DecodeProgress s

/-- A memory holds the elements of a list from index 0 on (the host has filled them, R254). -/
def Holds {α : Type} (m : Memory α) (l : List α) : Prop := ∀ (k : Nat) (v : α), l[k]? = some v → memGet m k = some v

/-- No payload byte 0xFF is followed by 0xFE (R193, R262). -/
def NoCollision (t : List Byte) : Prop := ∀ i : Nat, ¬(t[i]? = some 0xFF#8 ∧ t[i + 1]? = some 0xFE#8)

/-- `i` is the first index of the pair 0xFF, 0xFE in a payload (R147). -/
def FirstCollision (t : List Byte) (i : Nat) : Prop :=
  t[i]? = some 0xFF#8 ∧ t[i + 1]? = some 0xFE#8 ∧ ∀ j < i, ¬(t[j]? = some 0xFF#8 ∧ t[j + 1]? = some 0xFE#8)

/-- The value of group `k` of a bitstream, for `k < len(s) div 8` (R97, R12). -/
def groupAt (bits : Bitstream) (k : Nat) : Byte :=
  let g := fun j => bits.getD (8 * k + j) false
  groupValue (g 0) (g 1) (g 2) (g 3) (g 4) (g 5) (g 6) (g 7)

/-- The value a FILL form gives to element `j`, if it gives one (spec/44_host_commands.md R205). -/
def formValue {α : Type} (f : FillForm α) (j : Nat) : Option α :=
  match f with
  | .one i v => if j = i then some v else none
  | .range a b v => if a ≤ j ∧ j ≤ b then some v else none
  | .list a vs => if a ≤ j then vs[j - a]? else none

/-- The first index a DRAIN form reads and how many it reads (R205). -/
def drainSpan : DrainForm → Nat × Nat
  | .one i => (i, 1)
  | .range a b => (a, b + 1 - a)

/-- The host's operand registers and the memories PIXIN and PAY, which no command changes (spec/42_encoder.md R164). -/
structure SameInputs (s t : State) : Prop where
  par : t.par = s.par
  width : t.width = s.width
  height : t.height = s.height
  len : t.len = s.len
  pixin : t.pixin = s.pixin
  pay : t.pay = s.pay

/-- Two states agree on everything but the working registers (MODE, the latched operands, IDX, X, Y, SHREG, BITCNT, PREV, NGRP), of
which no claim may say anything after a command has completed (spec/42_encoder.md R170, spec/93_implementation_defined.md U11). -/
structure SameButWorking (t u : State) : Prop where
  par : t.par = u.par
  width : t.width = u.width
  height : t.height = u.height
  len : t.len = u.len
  outLen : t.outLen = u.outLen
  done : t.done = u.done
  err : t.err = u.err
  phase : t.phase = u.phase
  pixin : t.pixin = u.pixin
  pixout : t.pixout = u.pixout
  pay : t.pay = u.pay
  txt : t.txt = u.txt
  moves : t.moves = u.moves
  answer : t.answer = u.answer
  draws : t.draws = u.draws
  stale : t.stale = u.stale

/-- Output pixel `i` of a successful ENCODE of frame `f` into carrier pixel `p` (spec/42_encoder.md R163). -/
structure EmbeddedPixel (f : Bitstream) (i : Nat) (p o : Pixel) : Prop where
  g : o.g = p.g
  b : o.b = p.b
  x : o.x = p.x
  high : ∀ j, 1 ≤ j → o.r.getLsbD j = p.r.getLsbD j
  carried : i < f.length → f[i]? = some (o.r.getLsbD 0)
  kept : f.length ≤ i → o.r.getLsbD 0 = p.r.getLsbD 0

/-- What no command reads or writes: the schedule and what the host was last given. -/
structure SameCaller (s t : State) : Prop where
  moves : t.moves = s.moves
  answer : t.answer = s.answer

end Sys2Proof
end

