-- ==== Sys2Proof/Certificates/Slice0/Obligations.lean ====
section
/-! DEFINITION. The statements for the provers, each formalising rules of spec/ about every state and operand. Register equations
name the whole next state, so a field the record update does not name is unchanged: that is each operation's frame. Where an
operation ends a command the equation leaves out the working registers (`SameButWorking`), of which no claim may say anything then
(R170, U11). -/

open Sys2Proof Sys2Proof.Machine

/-! ### Words and dispatch -/

/-- R103: which step the engine takes, as a function of PHASE, MODE and the arm condition. -/
def Obligations.EngineStepIsChosenByPhaseModeAndIndex : Prop :=
  ∀ s : State,
    (s.phase = 0b00#2 → fetchEngine s = .error .idle) ∧
    (s.phase = 0b01#2 → s.mode = 0#1 → fetchEngine s = .ok .encCheck) ∧
    (s.phase = 0b01#2 → s.mode = 1#1 → fetchEngine s = .ok .decCheck) ∧
    (s.phase = 0b10#2 → s.mode = 0#1 → s.idx < s.npix → fetchEngine s = .ok .encStepPixel) ∧
    (s.phase = 0b10#2 → s.mode = 0#1 → s.idx = s.npix → fetchEngine s = .ok .encStepEnd) ∧
    (s.phase = 0b10#2 → s.mode = 1#1 → s.idx < s.npix → fetchEngine s = .ok .decStepPixel) ∧
    (s.phase = 0b10#2 → s.mode = 1#1 → s.idx = s.npix → fetchEngine s = .ok .decStepEnd) ∧
    (s.phase = 0b11#2 → fetchEngine s = .error .unreachable)

/-- R101, R103, R105: every operation that has a word is the one its word decodes to; the checks have no arm condition; the command
word is its low two bits, at every value of the bits above. -/
def Obligations.WordsDecodeToTheirOperations : Prop :=
  (∀ (i : Instr) (f : Format) (bs rest : List Byte), encode i = some (f, bs) → decode f (bs ++ rest) = .ok (i, rest)) ∧
  (∀ (arm : Arm) (rest : List Byte), decode (.step arm) (0b010#8 :: rest) = .ok (.encCheck, rest) ∧
    decode (.step arm) (0b011#8 :: rest) = .ok (.decCheck, rest)) ∧
  (∀ (b : Byte) (rest : List Byte),
    (b.getLsbD 1 = false → b.getLsbD 0 = false → decode .cmd (b :: rest) = .ok (.nop, rest)) ∧
    (b.getLsbD 1 = false → b.getLsbD 0 = true → decode .cmd (b :: rest) = .ok (.encode, rest)) ∧
    (b.getLsbD 1 = true → b.getLsbD 0 = false → decode .cmd (b :: rest) = .ok (.decode, rest)) ∧
    (b.getLsbD 1 = true → b.getLsbD 0 = true → decode .cmd (b :: rest) = .ok (.reservedOp3, rest)))

/-- R90: the pixel word at every XCH: packing and unpacking agree, and the carrier bit `R[0]` is bit 16 of the word. -/
def Obligations.PixelWordRoundTrip : Prop :=
  ∀ (xch : Nat) (p : Pixel) (w : BitVec (xch + 8 + 8 + 8)),
    (p.x < 2 ^ xch → pixelOfWord xch (pixelWord xch p) = p) ∧
    pixelWord xch (pixelOfWord xch w) = w ∧
    (pixelWord xch p).getLsbD 16 = readBit p ∧
    (∀ i < 8, (pixelWord xch p).getLsbD i = p.b.getLsbD i ∧ (pixelWord xch p).getLsbD (8 + i) = p.g.getLsbD i ∧
      (pixelWord xch p).getLsbD (16 + i) = p.r.getLsbD i) ∧
    (∀ i < xch, (pixelWord xch p).getLsbD (24 + i) = p.x.testBit i)

/-- A step runs the operation that the schedule selects, or lets the host decide, on the state with the schedule's head taken away;
an idle engine does nothing. The schedule is the model's (log 2). -/
def Obligations.StepRunsTheSelectedOperation : Prop :=
  ∀ (s : State) (ms : List Move),
    (∀ i, s.moves = [] → fetchEngine s = .ok i → wellFormed s.par i = true → step s = exec i s) ∧
    (∀ i, s.moves = .engine :: ms → fetchEngine s = .ok i → wellFormed s.par i = true → step s = exec i { s with moves := ms }) ∧
    (∀ op, s.moves = .host op :: ms → wellFormed s.par (hostInstr op) = true →
      step s = exec (hostInstr op) { s with moves := ms }) ∧
    (∀ w i, s.moves = .call w :: ms → decode .cmd [w] = .ok (i, []) → wellFormed s.par i = true →
      step s = exec i { s with moves := ms }) ∧
    (∀ d, s.moves = .test d :: ms → step s = hostTest d { s with moves := ms }) ∧
    (s.moves = [] → fetchEngine s = .error .idle → step s = .next s) ∧
    (s.moves = .engine :: ms → fetchEngine s = .error .idle → step s = .next { s with moves := ms })

/-! ### Reset -/

/-- R37, R250, R251: the values the spec gives at reset; every memory element is unwritten; the engine has no step. No claim on
the registers the spec leaves unspecified. -/
def Obligations.ResetLeavesTheSpecifiedValues : Prop :=
  State.reset.phase = 0b00#2 ∧ statusWord State.reset = 0b0000#4 ∧
  State.reset.width = 0 ∧ State.reset.height = 0 ∧ State.reset.len = 0 ∧ State.reset.outLen = 0 ∧
  (∀ i, memGet State.reset.pixin i = none ∧ memGet State.reset.pixout i = none ∧ memGet State.reset.pay i = none ∧
    memGet State.reset.txt i = none) ∧
  step State.reset = .next State.reset

/-- R250: reset as an event in any state: the specified values, no outcome, PIXIN and PAY as they were, PIXOUT and TXT with no
value that a read could rely on. -/
def Obligations.ResetEventEndsTheCommandWithoutOutcome : Prop :=
  ∀ (s : State) (ms : List Move), s.moves = .reset :: ms →
    ∃ t, step s = .next t ∧ t.phase = 0b00#2 ∧ statusWord t = 0b0000#4 ∧
      t.width = 0 ∧ t.height = 0 ∧ t.len = 0 ∧ t.outLen = 0 ∧
      t.pixin = s.pixin ∧ t.pay = s.pay ∧
      (∀ i, memGet t.pixout i = none ∧ memGet t.txt i = none) ∧
      t.par = s.par ∧ t.moves = ms

/-! ### Host transactions -/

/-- R105: NOP and the reserved word change nothing, on their own and through START and WR CMD; write data above bit 1 is ignored. -/
def Obligations.NopAndReservedWordDoNothing : Prop :=
  ∀ s : State,
    exec .nop s = .next s ∧ exec .reservedOp3 s = .next s ∧
    exec (.start 0b00#2) s = .next s ∧ exec (.start 0b11#2) s = .next s ∧
    (∀ v, v % 4 = 0 ∨ v % 4 = 3 → exec (.wr 0 v) s = .next s) ∧
    (∀ v, exec (.wr 0 v) s = exec (.wr 0 (v % 4)) s)

/-- R203: what START writes, and when it is ignored. Where the platform's memories are large enough (R71). -/
def Obligations.StartLatchesItsOperands : Prop :=
  ∀ (s : State) (op : BitVec 2),
    (op = 0b00#2 ∨ op = 0b11#2 → exec (.start op) s = .next s) ∧
    (s.phase ≠ 0b00#2 → exec (.start op) s = .next s) ∧
    (op = 0b01#2 ∨ op = 0b10#2 → s.phase = 0b00#2 → capacitiesCover (if op = 0b01#2 then 0#1 else 1#1) s = true →
      exec (.start op) s = .next
        { s with
          mode := if op = 0b01#2 then 0#1 else 1#1
          wL := s.width, hL := s.height, lenL := s.len
          npix := s.width * s.height, nbits := 8 * s.len + 16
          idx := 0, x := 0, y := 0, shreg := 0, bitcnt := 0, prev := 0, ngrp := 0
          outLen := 0, done := 0, err := 0, phase := 0b01 })

/-- R71, U5: a command whose index range a memory does not cover is refused, however it is started. -/
def Obligations.StartBeyondTheMemoriesIsRefused : Prop :=
  ∀ s : State, s.phase = 0b00#2 →
    (capacitiesCover 0#1 s = false → exec (.start 0b01#2) s = .refused .memoryTooSmall ∧
      exec (.wr 0 1) s = .refused .memoryTooSmall ∧ exec .encode s = .refused .memoryTooSmall) ∧
    (capacitiesCover 1#1 s = false → exec (.start 0b10#2) s = .refused .memoryTooSmall ∧
      exec (.wr 0 2) s = .refused .memoryTooSmall ∧ exec .decode s = .refused .memoryTooSmall)

/-- R201: WR by register number. -/
def Obligations.RegisterWrites : Prop :=
  ∀ (s : State) (v : Nat),
    exec (.wr 0 v) s = exec (.start (BitVec.ofNat 2 v)) s ∧
    exec (.wr 1 v) s = .next s ∧
    exec (.wr 2 v) s = .next { s with width := v % 2 ^ s.par.dimw } ∧
    exec (.wr 3 v) s = .next { s with height := v % 2 ^ s.par.dimw } ∧
    exec (.wr 4 v) s = .next { s with len := v % 2 ^ s.par.lenw } ∧
    exec (.wr 5 v) s = .next s ∧
    (∀ reg, 6 ≤ reg → exec (.wr reg v) s = .next s)

/-- R202, R23: RD by register number; STATUS is ERR, DONE, BUSY from the high end down; nothing but the answer changes. -/
def Obligations.RegisterReads : Prop :=
  ∀ s : State,
    exec (.rd 0) s = .next { s with answer := .value 0 } ∧
    exec (.rd 1) s = .next { s with answer := .value (4 * s.err.toNat + 2 * s.done.toNat + (if s.phase = 0b00#2 then 0 else 1)) } ∧
    exec (.rd 2) s = .next { s with answer := .value s.width } ∧
    exec (.rd 3) s = .next { s with answer := .value s.height } ∧
    exec (.rd 4) s = .next { s with answer := .value s.len } ∧
    exec (.rd 5) s = .next { s with answer := .value s.outLen } ∧
    (∀ reg, 6 ≤ reg → exec (.rd reg) s = .next { s with answer := .value 0 })

/-- R204: WAIT reads STATUS and ends when BUSY = 0; while BUSY = 1 the host polls again, after a step of the engine (the model's
schedule, log 2). -/
def Obligations.WaitPollsStatus : Prop :=
  ∀ s : State,
    (s.phase = 0b00#2 → exec .wait s = .next { s with answer := .value (statusWord s).toNat }) ∧
    (s.phase ≠ 0b00#2 → exec .wait s = .next
      { s with answer := .value (statusWord s).toNat, moves := .engine :: .host .wait :: s.moves })

/-- R206, R62: FILL of a pixel memory, all three forms: exactly the form's elements are replaced. -/
def Obligations.FillPixelsReplacesItsElements : Prop :=
  ∀ (s : State) (S : PixelSpace) (f : FillForm Pixel), s.phase = 0b00#2 →
    (∀ j v, formValue f j = some v → capCovers s.par.capPix (j + 1) = true) →
    ∃ m, (∀ j, memGet m j = (formValue f j).or (memGet (pixelMem S s) j)) ∧
      exec (.fill (.pixels S f)) s = .next (match S with
        | .pixin => { s with pixin := m }
        | .pixout => { s with pixout := m })

/-- R206, R62: FILL of a byte memory, all three forms; a TXT element the host has written is no longer stale (log 6). -/
def Obligations.FillBytesReplacesItsElements : Prop :=
  ∀ (s : State) (f : FillForm Byte), s.phase = 0b00#2 →
    ((∀ j v, formValue f j = some v → capCovers s.par.capPay (j + 1) = true) →
      ∃ m, (∀ j, memGet m j = (formValue f j).or (memGet s.pay j)) ∧
        exec (.fill (.bytes .pay f)) s = .next { s with pay := m }) ∧
    ((∀ j v, formValue f j = some v → capCovers s.par.capTxt (j + 1) = true) →
      ∃ m st, (∀ j, memGet m j = (formValue f j).or (memGet s.txt j)) ∧ (∀ j, j ∈ st ↔ j ∈ s.stale ∧ formValue f j = none) ∧
        exec (.fill (.bytes .txt f)) s = .next { s with txt := m, stale := st })

/-- R206, R62, R67: DRAIN returns the elements last written, in index order, and changes nothing. A TXT element must hold a promised
byte (U3). -/
def Obligations.DrainReturnsTheElements : Prop :=
  ∀ (s : State) (d : DrainForm), s.phase = 0b00#2 →
    (∀ (S : PixelSpace) (ps : List Pixel), ps.length = (drainSpan d).2 →
      (∀ (k : Nat) (p : Pixel), ps[k]? = some p → memGet (pixelMem S s) ((drainSpan d).1 + k) = some p ∧
        capCovers s.par.capPix ((drainSpan d).1 + k + 1) = true) →
      exec (.drain (.pixels S d)) s = .next { s with answer := .pixels ps }) ∧
    (∀ (S : ByteSpace) (bs : List Byte), bs.length = (drainSpan d).2 →
      (∀ (k : Nat) (b : Byte), bs[k]? = some b → memGet (byteMem S s) ((drainSpan d).1 + k) = some b ∧
        capCovers (byteCap S s.par) ((drainSpan d).1 + k + 1) = true ∧
        (S = .txt → (drainSpan d).1 + k ∉ s.stale)) →
      exec (.drain (.bytes S d)) s = .next { s with answer := .bytes bs })

/-- R62, U1, U3, R143: on an idle block a host read of an element that nothing has written, or of a TXT byte that is not promised, is a
free value; every such read is a new draw. So is, in every state, FRAMEBIT at an index where it is undefined. Nothing here says what
the value is (log 3, 6, 9). -/
def Obligations.OpenValuesAreFreeAndNothingStops : Prop :=
  ∀ (s : State) (i : Nat),
    (∀ S, s.phase = 0b00#2 → memGet (pixelMem S s) i = none → capCovers s.par.capPix (i + 1) = true →
      exec (.drain (.pixels S (.one i))) s = .next
        { s with
          answer := .pixels [{ Config.freePixel s.draws with x := (Config.freePixel s.draws).x % 2 ^ s.par.xch }]
          draws := s.draws + 1 }) ∧
    (∀ S, s.phase = 0b00#2 → memGet (byteMem S s) i = none ∨ (S = .txt ∧ i ∈ s.stale) → capCovers (byteCap S s.par) (i + 1) = true →
      exec (.drain (.bytes S (.one i))) s = .next
        { s with answer := .bytes [Config.freeByte s.draws], draws := s.draws + 1 }) ∧
    (s.nbits ≤ i → exec (.framebit i) s = .next { s with answer := .bit (Config.freeBit s.draws), draws := s.draws + 1 })

/-- R203, R258, R261: while a command runs, a command write of any kind and the calls are ignored, and the host has no FILL or
DRAIN (U2). -/
def Obligations.HostMovesWhileBusy : Prop :=
  ∀ s : State, s.phase ≠ 0b00#2 →
    exec .encode s = .next s ∧ exec .decode s = .next s ∧ (∀ op, exec (.start op) s = .next s) ∧
    (∀ v, exec (.wr 0 v) s = .next s) ∧
    (∀ f, exec (.fill f) s = .refused .hostMoveWhileBusy) ∧ (∀ d, exec (.drain d) s = .refused .hostMoveWhileBusy)

/-! ### Bit Sequencer -/

/-- R121: POSITIONS is the row-major sequence. -/
def Obligations.PositionsAreRowMajor : Prop :=
  ∀ (s : State) (w h : Nat), ∃ l : List (Nat × Nat),
    exec (.positions w h) s = .next { s with answer := .positions l } ∧
    l.length = w * h ∧ ∀ i < w * h, l[i]? = some (i % w, i / w)

/-- R123: NEXT, where its precondition holds. -/
def Obligations.NextAdvancesByOnePosition : Prop :=
  ∀ s : State, s.idx < s.npix → 1 ≤ s.wL →
    exec .next s = .next
      { s with
        idx := s.idx + 1
        x := if s.x = s.wL - 1 then 0 else s.x + 1
        y := if s.x = s.wL - 1 then s.y + 1 else s.y } ∧
    (s.idx = s.y * s.wL + s.x → ∀ t, exec .next s = .next t → t.idx = t.y * t.wL + t.x)

/-- R124: READBIT. -/
def Obligations.ReadbitIsRedBitZero : Prop :=
  ∀ (s : State) (p : Pixel), exec (.readbit p) s = .next { s with answer := .bit (p.r.getLsbD 0) } ∧
    (p.r.getLsbD 0 = true ↔ p.r &&& 1#8 = 1#8)

/-- R125: WRITEBIT. -/
def Obligations.WritebitReplacesRedBitZero : Prop :=
  ∀ (s : State) (p : Pixel) (b : Bool), ∃ q : Pixel,
    exec (.writebit p b) s = .next { s with answer := .pixel q } ∧
    q.r = (p.r &&& 0xFE#8) ||| (if b then 1#8 else 0#8) ∧ q.g = p.g ∧ q.b = p.b ∧ q.x = p.x ∧
    (∀ j, 1 ≤ j → q.r.getLsbD j = p.r.getLsbD j)

/-- R126: the laws of READBIT and WRITEBIT. -/
def Obligations.ReadbitWritebitLaws : Prop :=
  ∀ (p : Pixel) (b c : Bool),
    readBit (writeBit p b) = b ∧ writeBit p (readBit p) = p ∧ writeBit (writeBit p b) c = writeBit p c ∧
    (writeBit p b).g = p.g ∧ (writeBit p b).b = p.b ∧ (writeBit p b).x = p.x ∧ (writeBit p b).r >>> 1 = p.r >>> 1

/-- R127: MUXSEL's three ranges. -/
def Obligations.MuxselSelectsByRange : Prop :=
  ∀ (s : State) (i n : Nat),
    (i < 8 * n → exec (.muxsel i n) s = .next { s with answer := .source .payload }) ∧
    (8 * n ≤ i → i < 8 * n + 16 → exec (.muxsel i n) s = .next { s with answer := .source .sentinel }) ∧
    (8 * n + 16 ≤ i → exec (.muxsel i n) s = .next { s with answer := .source .pass })

/-! ### Payload Framer -/

/-- R141, R142, R94: FRAME's length and every one of its bits. -/
def Obligations.FrameLaysOutPayloadThenSentinel : Prop :=
  ∀ (s : State) (t : List Byte), ∃ bits : Bitstream,
    exec (.frame t) s = .next { s with answer := .stream bits } ∧
    bits.length = 8 * t.length + 16 ∧
    (∀ (k j : Nat) (b : Byte), t[k]? = some b → j < 8 → bits[8 * k + j]? = some (b.getLsbD (7 - j))) ∧
    (∀ j < 15, bits[8 * t.length + j]? = some true) ∧ bits[8 * t.length + 15]? = some false

/-- R143: FRAMEBIT is the frame's bit, when the latched operands are START's and PAY holds the payload. -/
def Obligations.FramebitIsTheBitOfTheFrame : Prop :=
  ∀ (s : State) (t : List Byte) (i : Nat), s.lenL = t.length → s.nbits = 8 * s.lenL + 16 → Holds s.pay t →
    capCovers s.par.capPay s.lenL = true → i < s.nbits →
    ∃ b, (frame t)[i]? = some b ∧ exec (.framebit i) s = .next { s with answer := .bit b }

/-- R146: the first-match law of UNFRAME. -/
def Obligations.UnframeStopsAtTheFirstSentinelPair : Prop :=
  ∀ (s : State) (bits : Bitstream),
    (∀ k, 1 ≤ k → k < bits.length / 8 → groupAt bits (k - 1) = 0xFF#8 → groupAt bits k = 0xFE#8 →
      (∀ j, 1 ≤ j → j < k → ¬(groupAt bits (j - 1) = 0xFF#8 ∧ groupAt bits j = 0xFE#8)) →
      exec (.unframe bits) s = .next { s with answer := .text (some ((List.range (k - 1)).map (groupAt bits))) }) ∧
    ((∀ k, 1 ≤ k → k < bits.length / 8 → ¬(groupAt bits (k - 1) = 0xFF#8 ∧ groupAt bits k = 0xFE#8)) →
      exec (.unframe bits) s = .next { s with answer := .text none })

/-- R145: short bitstreams, ragged tails, and bits after the match. -/
def Obligations.UnframeIgnoresWhatFormsNoGroup : Prop :=
  ∀ bits extra : Bitstream,
    (bits.length < 16 → unframe bits = none) ∧
    (bits.length % 8 = 0 → extra.length < 8 → unframe (bits ++ extra) = unframe bits) ∧
    (∀ t, unframe bits = some t → unframe (bits ++ extra) = some t)

/-- R147: the framing round trip, and the early truncation of a payload that holds the pair. -/
def Obligations.FramingRoundTrip : Prop :=
  ∀ (t : List Byte) (r : Bitstream),
    (NoCollision t → unframe (frame t ++ r) = some t) ∧
    (∀ i, FirstCollision t i → unframe (frame t ++ r) = some (t.take i))

/-! ### ENCODE -/

/-- R160, R163: ENCODE on a filled carrier and payload that fit: every output pixel, bit by bit; the elements above the grid, the
inputs and TXT are as they were. -/
def Obligations.EncodeEmbedsTheFrame : Prop :=
  ∀ (s : State) (t : List Byte) (g : List Pixel), s.phase = 0b00#2 → capacitiesCover 0#1 s = true →
    s.len = t.length → Holds s.pay t → g.length = s.width * s.height → Holds s.pixin g →
    t ≠ [] → s.width ≠ 0 → s.height ≠ 0 → 8 * s.len + 16 ≤ s.width * s.height →
    ∃ u, exec .encode s = .next u ∧ statusWord u = 0b0010#4 ∧ u.outLen = 0 ∧ SameInputs s u ∧ SameCaller s u ∧
      u.txt = s.txt ∧ u.stale = s.stale ∧ u.draws = s.draws ∧
      (∀ (i : Nat) (p : Pixel), g[i]? = some p → ∃ o, memGet u.pixout i = some o ∧
        o.g = p.g ∧ o.b = p.b ∧ o.x = p.x ∧ (∀ j, 1 ≤ j → o.r.getLsbD j = p.r.getLsbD j) ∧
        (i < 8 * s.len + 16 → (frame t)[i]? = some (o.r.getLsbD 0)) ∧
        (8 * s.len + 16 ≤ i → o.r.getLsbD 0 = p.r.getLsbD 0)) ∧
      (∀ i, s.width * s.height ≤ i → memGet u.pixout i = memGet s.pixout i)

/-- R161, R162, R226: which outcome ENCODE reports, InvalidInput first, then CapacityExceeded on the exact comparison, OK at equality;
an error touches no memory and reads none (no draw). No premise on what the memories hold. -/
def Obligations.EncodeReportsExactlyOneOutcome : Prop :=
  ∀ s : State, s.phase = 0b00#2 → capacitiesCover 0#1 s = true →
    ∃ u, exec .encode s = .next u ∧ u.outLen = 0 ∧ SameInputs s u ∧ SameCaller s u ∧ u.txt = s.txt ∧ u.stale = s.stale ∧
      (s.len = 0 ∨ s.width = 0 ∨ s.height = 0 → statusWord u = 0b0110#4 ∧ u.pixout = s.pixout ∧ u.draws = s.draws) ∧
      (s.len ≠ 0 → s.width ≠ 0 → s.height ≠ 0 → s.width * s.height < 8 * s.len + 16 →
        statusWord u = 0b1010#4 ∧ u.pixout = s.pixout ∧ u.draws = s.draws) ∧
      (s.len ≠ 0 → s.width ≠ 0 → s.height ≠ 0 → 8 * s.len + 16 ≤ s.width * s.height → statusWord u = 0b0010#4)

/-- R166: ENC_CHECK. Where it raises, the command is over, and nothing is said of the working registers (R170). -/
def Obligations.EncCheckValidates : Prop :=
  ∀ s : State, s.phase = 0b01#2 → s.mode = 0#1 →
    ∃ t, exec .encCheck s = .next t ∧
      if s.lenL = 0 ∨ s.wL = 0 ∨ s.hL = 0 then SameButWorking t { s with err := 0b01, done := 1, phase := 0b00 }
      else if s.nbits > s.npix then SameButWorking t { s with err := 0b10, done := 1, phase := 0b00 }
      else t = { s with phase := 0b10 }

/-- R167, R127, R143: ENC_STEP, pixel arm, on written elements: PIXOUT:IDX and the counters change and nothing else. -/
def Obligations.EncStepWritesOnePixel : Prop :=
  ∀ (s : State) (p q : Pixel), s.phase = 0b10#2 → s.mode = 0#1 → s.idx < s.npix →
    memGet s.pixin s.idx = some p → capCovers s.par.capPix (s.idx + 1) = true →
    (s.nbits ≤ s.idx ∧ q = p) ∨
      (s.idx < s.nbits ∧ s.idx < 8 * s.lenL ∧ capCovers s.par.capPay (s.idx / 8 + 1) = true ∧
        ∃ b, memGet s.pay (s.idx / 8) = some b ∧ q = writeBit p (b.getLsbD (7 - s.idx % 8))) ∨
      (s.idx < s.nbits ∧ 8 * s.lenL ≤ s.idx ∧ q = writeBit p (decide (s.idx - 8 * s.lenL ≤ 14))) →
    ∃ t, exec .encStepPixel s = .next t ∧
      (∀ j, memGet t.pixout j = if j = s.idx then some q else memGet s.pixout j) ∧
      t = { s with
        pixout := t.pixout
        idx := s.idx + 1
        x := if s.x + 1 = s.wL then 0 else s.x + 1
        y := if s.x + 1 = s.wL then s.y + 1 else s.y }

/-- R168, R225: ENC_STEP, end arm. -/
def Obligations.EncStepEndCompletes : Prop :=
  ∀ s : State, s.phase = 0b10#2 → s.mode = 0#1 → s.idx = s.npix →
    ∃ t, exec .encStepEnd s = .next t ∧ SameButWorking t { s with err := 0b00, done := 1, phase := 0b00 }

/-! ### DECODE -/

/-- R180, R182: DECODE on a filled grid: the text before the first sentinel pair, or NotFound. -/
def Obligations.DecodeRecoversTheUnframedText : Prop :=
  ∀ (s : State) (g : List Pixel), s.phase = 0b00#2 → capacitiesCover 1#1 s = true →
    g.length = s.width * s.height → Holds s.pixin g →
    ∃ u, exec .decode s = .next u ∧ SameInputs s u ∧ SameCaller s u ∧ u.pixout = s.pixout ∧ u.draws = s.draws ∧
      (∀ r, unframe (g.map readBit) = some r → statusWord u = 0b0010#4 ∧ u.outLen = r.length ∧ Holds u.txt r ∧
        (∀ k, r.length ≤ k → memGet u.txt k = memGet s.txt k)) ∧
      (unframe (g.map readBit) = none → statusWord u = 0b1110#4 ∧ u.outLen = 0 ∧ u.txt = s.txt)

/-- R183: a grid of fewer than 16 pixels is NotFound, whatever its elements hold or do not hold. -/
def Obligations.DecodeOfSmallGridIsNotFound : Prop :=
  ∀ s : State, s.phase = 0b00#2 → capacitiesCover 1#1 s = true → s.width * s.height < 16 →
    ∃ u, exec .decode s = .next u ∧ statusWord u = 0b1110#4 ∧ u.outLen = 0

/-- R184: the longest text. -/
def Obligations.DecodedTextFitsTheGrid : Prop :=
  ∀ s u : State, s.phase = 0b00#2 → exec .decode s = .next u → statusWord u = 0b0010#4 →
    u.outLen + 2 ≤ s.width * s.height / 8

/-- R181: two grids with the same red low bits decode alike. -/
def Obligations.DecodeDependsOnlyOnRedLowBits : Prop :=
  ∀ (s : State) (m : Memory Pixel) (g g' : List Pixel), s.phase = 0b00#2 → capacitiesCover 1#1 s = true →
    g.length = s.width * s.height → Holds s.pixin g → Holds m g' → g.map readBit = g'.map readBit →
    ∃ u u', exec .decode s = .next u ∧ exec .decode { s with pixin := m } = .next u' ∧
      statusWord u' = statusWord u ∧ u'.outLen = u.outLen ∧ u'.txt = u.txt ∧ u'.stale = u.stale

/-- R186: DEC_CHECK. -/
def Obligations.DecCheckValidatesNothing : Prop :=
  ∀ s : State, s.phase = 0b01#2 → s.mode = 1#1 → exec .decCheck s = .next { s with phase := 0b10 }

/-- R187: DEC_STEP, pixel arm, before the eighth bit of a group. -/
def Obligations.DecStepShiftsOneBitIn : Prop :=
  ∀ (s : State) (p : Pixel), s.phase = 0b10#2 → s.mode = 1#1 → s.idx < s.npix →
    memGet s.pixin s.idx = some p → capCovers s.par.capPix (s.idx + 1) = true → s.bitcnt ≠ 7#3 →
    exec .decStepPixel s = .next
      { s with
        shreg := (s.shreg <<< 1) ||| (if readBit p then 1#8 else 0#8)
        bitcnt := s.bitcnt + 1
        idx := s.idx + 1
        x := if s.x + 1 = s.wL then 0 else s.x + 1
        y := if s.x + 1 = s.wL then s.y + 1 else s.y }

/-- R188: GROUP_COMPLETE, both ways. On a match the text is what lies below OUT_LEN; TXT elements from OUT_LEN on are withdrawn
from the host (log 6). -/
def Obligations.DecStepCompletesAGroup : Prop :=
  ∀ (s : State) (p : Pixel) (v : Byte), s.phase = 0b10#2 → s.mode = 1#1 → s.idx < s.npix →
    memGet s.pixin s.idx = some p → capCovers s.par.capPix (s.idx + 1) = true → s.bitcnt = 7#3 →
    capCovers s.par.capTxt (s.ngrp + 1) = true → v = (s.shreg <<< 1) ||| (if readBit p then 1#8 else 0#8) →
    ∃ t, exec .decStepPixel s = .next t ∧
      (∀ j, memGet t.txt j = if j = s.ngrp then some v else memGet s.txt j) ∧
      (1 ≤ s.ngrp ∧ s.prev = 0xFF#8 ∧ v = 0xFE#8 →
        SameButWorking t
          { s with txt := t.txt, stale := t.stale, outLen := s.ngrp - 1, err := 0b00, done := 1, phase := 0b00 } ∧
        (∀ j, j ∈ t.stale ↔ s.ngrp - 1 ≤ j ∧ memGet t.txt j ≠ none)) ∧
      (¬(1 ≤ s.ngrp ∧ s.prev = 0xFF#8 ∧ v = 0xFE#8) →
        t = { s with
          txt := t.txt, prev := v, ngrp := s.ngrp + 1, shreg := 0, bitcnt := 0
          idx := s.idx + 1
          x := if s.x + 1 = s.wL then 0 else s.x + 1
          y := if s.x + 1 = s.wL then s.y + 1 else s.y })

/-- R189, R224: DEC_STEP, end arm; all of TXT is withdrawn from the host (log 6). -/
def Obligations.DecStepEndRaisesNotFound : Prop :=
  ∀ s : State, s.phase = 0b10#2 → s.mode = 1#1 → s.idx = s.npix →
    ∃ t, exec .decStepEnd s = .next t ∧ SameButWorking t { s with stale := t.stale, err := 0b11, done := 1, phase := 0b00 } ∧
      (∀ j, j ∈ t.stale ↔ memGet s.txt j ≠ none)

/-- R193: the round trip, and the truncation of a payload that holds the pair. -/
def Obligations.DecodeOfEncodeReturnsThePayload : Prop :=
  ∀ (s u s' : State) (t : List Byte), s.phase = 0b00#2 → s.len = t.length → Holds s.pay t →
    exec .encode s = .next u → statusWord u = 0b0010#4 →
    s'.phase = 0b00#2 → s'.width = s.width → s'.height = s.height → capacitiesCover 1#1 s' = true →
    (∀ i < s.width * s.height, memGet s'.pixin i = memGet u.pixout i) →
    ∃ v, exec .decode s' = .next v ∧ statusWord v = 0b0010#4 ∧
      (NoCollision t → v.outLen = t.length ∧ Holds v.txt t) ∧
      (∀ i, FirstCollision t i → v.outLen = i ∧ Holds v.txt (t.take i))

/-! ### Whole machine -/

/-- R166 to R168, R186, R187, R189, R123: an engine step outside the condition that enables it, and NEXT outside its precondition,
are not taken: the model stops there by name. -/
def Obligations.StepsOutsideTheirConditionAreNotTaken : Prop :=
  ∀ s : State,
    (¬(s.phase = 0b01#2 ∧ s.mode = 0#1) → exec .encCheck s = .refused .stepNotEnabled) ∧
    (¬(s.phase = 0b01#2 ∧ s.mode = 1#1) → exec .decCheck s = .refused .stepNotEnabled) ∧
    (¬(s.phase = 0b10#2 ∧ s.mode = 0#1 ∧ s.idx < s.npix) → exec .encStepPixel s = .refused .stepNotEnabled) ∧
    (¬(s.phase = 0b10#2 ∧ s.mode = 0#1 ∧ s.idx = s.npix) → exec .encStepEnd s = .refused .stepNotEnabled) ∧
    (¬(s.phase = 0b10#2 ∧ s.mode = 1#1 ∧ s.idx < s.npix) → exec .decStepPixel s = .refused .stepNotEnabled) ∧
    (¬(s.phase = 0b10#2 ∧ s.mode = 1#1 ∧ s.idx = s.npix) → exec .decStepEnd s = .refused .stepNotEnabled) ∧
    (s.npix ≤ s.idx → exec .next s = .refused .nextPastEnd)

/-- R63, R65, R164: nothing but FILL changes PIXIN or PAY, and no operation changes the parameters. -/
def Obligations.OnlyFillChangesTheInputMemories : Prop :=
  ∀ (i : Instr) (s t : State), exec i s = .next t →
    t.par = s.par ∧ ((∀ f, i ≠ .fill f) → t.pixin = s.pixin ∧ t.pay = s.pay)

/-- R64, R66: only ENCODE (and its pixel step) and FILL change PIXOUT; only DECODE (and its pixel step) and FILL change TXT. -/
def Obligations.OutputMemoriesHaveOneWriterEach : Prop :=
  ∀ (i : Instr) (s t : State), exec i s = .next t → (∀ f, i ≠ .fill f) →
    (i ≠ .encode → i ≠ .encStepPixel → t.pixout = s.pixout) ∧
    (i ≠ .decode → i ≠ .decStepPixel → t.txt = s.txt)

/-- R33, R228: BUSY, DONE, ERR and OUT_LEN are written only by a START, which leaves STATUS 0001 and OUT_LEN 0, and by completion,
which leaves PHASE IDLE and DONE 1: every operation, the engine's steps included, either leaves STATUS and OUT_LEN as they are or is
one of the two. No operation but a command, a START and an engine step changes PHASE, or MODE while a command runs. -/
def Obligations.FlagsAreWrittenOnlyByStartAndCompletion : Prop :=
  ∀ (i : Instr) (s t : State), exec i s = .next t →
    ((statusWord t = statusWord s ∧ t.outLen = s.outLen) ∨
      (((∃ op, i = .start op) ∨ ∃ v, i = .wr 0 v) ∧ statusWord t = 0b0001#4 ∧ t.outLen = 0) ∨
      ((i = .encode ∨ i = .decode ∨ i = .encCheck ∨ i = .encStepEnd ∨ i = .decStepPixel ∨ i = .decStepEnd) ∧
        t.phase = 0b00#2 ∧ t.done = 1#1)) ∧
    (i ≠ .encode → i ≠ .decode → (∀ op, i ≠ .start op) → (∀ v, i ≠ .wr 0 v) → i ≠ .encCheck → i ≠ .decCheck →
    i ≠ .encStepEnd → i ≠ .decStepPixel → i ≠ .decStepEnd →
    t.done = s.done ∧ t.err = s.err ∧ t.phase = s.phase ∧ t.outLen = s.outLen ∧ (s.phase ≠ 0b00#2 → t.mode = s.mode))

/-- R29: the latched operands are constant while a command runs; in particular no register write reaches them. Nothing is said of
them after the command has completed (R170, U11). -/
def Obligations.LatchedOperandsAreConstantWhileBusy : Prop :=
  ∀ (i : Instr) (s t : State), exec i s = .next t → s.phase ≠ 0b00#2 → t.phase ≠ 0b00#2 →
    t.mode = s.mode ∧ t.wL = s.wL ∧ t.hL = s.hL ∧ t.lenL = s.lenL ∧ t.npix = s.npix ∧ t.nbits = s.nbits

/-- R38: a START that is not ignored leaves nothing of the working registers, STATUS and OUT_LEN it finds. -/
def Obligations.StartLeavesNothingOfThePast : Prop :=
  ∀ (s t : State) (op : BitVec 2), s.phase = 0b00#2 → t.phase = 0b00#2 → op = 0b01#2 ∨ op = 0b10#2 →
    t.par = s.par → t.width = s.width → t.height = s.height → t.len = s.len →
    t.pixin = s.pixin → t.pixout = s.pixout → t.pay = s.pay → t.txt = s.txt →
    t.moves = s.moves → t.answer = s.answer → t.draws = s.draws → t.stale = s.stale →
    exec (.start op) t = exec (.start op) s

/-- R31: in RUN every engine step increases IDX by exactly 1 or ends the command, after which IDX is no result (R170). -/
def Obligations.EveryRunStepAdvancesTheIndexOrCompletes : Prop :=
  ∀ (s t : State) (i : Instr), s.phase = 0b10#2 → fetchEngine s = .ok i → exec i s = .next t →
    (t.idx = s.idx + 1 ∧ t.phase = 0b10#2 ∧ s.idx < s.npix) ∨ (t.phase = 0b00#2 ∧ t.done = 1#1)

/-- R169, R190, R71: from a legal state the engine always has a step it can take while a command runs. -/
def Obligations.BusyEngineIsNeverStuck : Prop :=
  ∀ (s : State) (ms : List Move), Inv s → s.phase ≠ 0b00#2 → s.moves = [] ∨ s.moves = .engine :: ms →
    ∃ t, step s = .next t

/-- R169, R190: a started command completes within NPIX + 2 engine steps. -/
def Obligations.StartedCommandCompletes : Prop :=
  ∀ s : State, Inv s → s.phase = 0b01#2 → s.moves = [] →
    ∃ t, runSteps (s.npix + 2) s = .next t ∧ t.phase = 0b00#2 ∧ t.done = 1#1

/-- R170: ENCODE's engine steps reach what the whole command gives. -/
def Obligations.EncodeStepsAgreeWithTheCommand : Prop :=
  ∀ s : State, s.phase = 0b00#2 → s.moves = [] → capacitiesCover 0#1 s = true →
    ∃ s1 t u, exec (.start 0b01#2) s = .next s1 ∧ exec .encode s = .next t ∧
      runSteps (s.width * s.height + 2) s1 = .next u ∧ u.phase = 0b00#2 ∧ t.phase = 0b00#2 ∧
      u.err = t.err ∧ u.done = t.done ∧ u.outLen = t.outLen ∧ u.pixin = t.pixin ∧ u.pixout = t.pixout ∧ u.pay = t.pay ∧
      u.txt = t.txt

/-- R190: DECODE's engine steps reach what the whole command gives. -/
def Obligations.DecodeStepsAgreeWithTheCommand : Prop :=
  ∀ s : State, s.phase = 0b00#2 → s.moves = [] → capacitiesCover 1#1 s = true →
    ∃ s1 t u, exec (.start 0b10#2) s = .next s1 ∧ exec .decode s = .next t ∧
      runSteps (s.width * s.height + 2) s1 = .next u ∧ u.phase = 0b00#2 ∧ t.phase = 0b00#2 ∧
      u.err = t.err ∧ u.done = t.done ∧ u.outLen = t.outLen ∧ u.pixin = t.pixin ∧ u.pixout = t.pixout ∧ u.pay = t.pay ∧
      (∀ k < t.outLen, memGet u.txt k = memGet t.txt k ∧ k ∉ u.stale ∧ k ∉ t.stale)

/-- R207: the pseudo-command `encode` from an idle block ends with the grid that R163 gives, or with the error of R161 or R162. The
moves that were scheduled behind it are left. Which moves a WAIT takes is the model's (log 2); the map of characters too (log 12). -/
def Obligations.EncodeCallReturnsTheGridOrTheError : Prop :=
  ∀ (s : State) (rest : List Move) (carrier : List Pixel) (w h : Nat) (text : List Nat),
    s.phase = 0b00#2 → s.moves = encodeCall carrier w h text ++ rest →
    w < 2 ^ s.par.dimw → h < 2 ^ s.par.dimw → text.length < 2 ^ s.par.lenw →
    carrier.length = w * h → (∀ p ∈ carrier, p.Fits s.par) →
    capCovers s.par.capPix (w * h) = true → capCovers s.par.capPay text.length = true →
    ∃ k t, runSteps k s = .next t ∧ t.phase = 0b00#2 ∧ t.moves = rest ∧
      (text.length = 0 ∨ w = 0 ∨ h = 0 → t.answer = .error 0b01#2) ∧
      (text.length ≠ 0 → w ≠ 0 → h ≠ 0 → w * h < 8 * text.length + 16 → t.answer = .error 0b10#2) ∧
      (text.length ≠ 0 → w ≠ 0 → h ≠ 0 → 8 * text.length + 16 ≤ w * h →
        ∃ g, t.answer = .pixels g ∧ g.length = w * h ∧
          ∀ (i : Nat) (p : Pixel), carrier[i]? = some p →
            ∃ o, g[i]? = some o ∧ EmbeddedPixel (frame (text.map charByte)) i p o)

/-- R208: the pseudo-command `decode` from an idle block ends with the characters of the text that UNFRAME finds in the red low bits of
the grid, or with NotFound. Which moves a WAIT takes is the model's (log 2). -/
def Obligations.DecodeCallReturnsTheTextOrNotFound : Prop :=
  ∀ (s : State) (rest : List Move) (grid : List Pixel) (w h : Nat),
    s.phase = 0b00#2 → s.moves = decodeCall grid w h ++ rest →
    w < 2 ^ s.par.dimw → h < 2 ^ s.par.dimw → grid.length = w * h → (∀ p ∈ grid, p.Fits s.par) →
    capCovers s.par.capPix (w * h) = true → capCovers s.par.capTxt (w * h / 8) = true →
    ∃ k t, runSteps k s = .next t ∧ t.phase = 0b00#2 ∧ t.moves = rest ∧
      (∀ r, unframe (grid.map readBit) = some r → t.answer = .chars (r.map byteChar)) ∧
      (unframe (grid.map readBit) = none → t.answer = .error 0b11#2)

/-- Every step keeps the invariant of the machine (R23, R27 to R32, R71, R187). -/
def Obligations.StepKeepsTheInvariant : Prop :=
  ∀ s t : State, Inv s → step s = .next t → Inv t

/-- The invariant holds after reset. -/
def Obligations.ResetMeetsTheInvariant : Prop := Inv State.reset

/-- Every step keeps the four memories canonical, from any state whose memories are. -/
def Obligations.StepKeepsMemoriesCanonical : Prop :=
  ∀ s t : State, MemoriesCanonical s → step s = .next t → MemoriesCanonical t

/-- R102, R23: every step keeps STATUS one of the six words. -/
def Obligations.StatusIsAlwaysOneOfSixWords : Prop :=
  ∀ s t : State, StatusLegal s → step s = .next t →
    StatusLegal t ∧ (statusWord t = 0b0000#4 ∨ statusWord t = 0b0001#4 ∨ statusWord t = 0b0010#4 ∨ statusWord t = 0b0110#4 ∨
      statusWord t = 0b1010#4 ∨ statusWord t = 0b1110#4)
end

