-- ==== Sys2Proof/Laws/Memory.lean ====
section
/-! SUPPORT. The laws of element memories (spec/20_memory.md R62) and that every memory operation keeps the canonical form. -/

namespace Sys2Proof.Machine

variable {α : Type}

@[simp] theorem memGet_nil (i : Nat) : memGet ([] : Memory α) i = none := rfl

/-- The element written is the element read. -/
@[simp] theorem memGet_memSet_same (m : Memory α) (i : Nat) (v : α) : memGet (memSet m i v) i = some v := by
  induction m with
  | nil => simp [memSet, memGet]
  | cons e m ih =>
    obtain ⟨j, w⟩ := e
    rcases Nat.lt_trichotomy i j with h | h | h
    · simp [memSet, memGet, h]
    · simp [memSet, memGet, h]
    · simp [memSet, memGet, ih, show ¬i < j by omega, show i ≠ j by omega, show j ≠ i by omega]

/-- A write changes no other element. -/
theorem memGet_memSet_other (m : Memory α) {i k : Nat} (v : α) (h : k ≠ i) : memGet (memSet m i v) k = memGet m k := by
  induction m with
  | nil => simp [memSet, memGet, Ne.symm h]
  | cons e m ih =>
    obtain ⟨j, w⟩ := e
    rcases Nat.lt_trichotomy i j with hij | hij | hij
    · simp [memSet, memGet, hij, Ne.symm h]
    · subst hij; simp [memSet, memGet, Ne.symm h]
    · simp [memSet, memGet, ih, show ¬i < j by omega, show i ≠ j by omega]

/-- Read after write, both cases at once. -/
theorem memGet_memSet (m : Memory α) (i k : Nat) (v : α) :
    memGet (memSet m i v) k = if k = i then some v else memGet m k := by
  split
  · subst k; simp
  · exact memGet_memSet_other m v ‹_›

/-- What a write can list. -/
theorem mem_memSet {m : Memory α} {i : Nat} {v : α} {e : Nat × α} (h : e ∈ memSet m i v) : e = (i, v) ∨ e ∈ m := by
  induction m with
  | nil => simpa [memSet] using h
  | cons d m ih =>
    obtain ⟨j, w⟩ := d
    simp only [memSet] at h
    split_ifs at h with h1 h2
    · simpa using h
    · simp only [List.mem_cons] at h ⊢; tauto
    · simp only [List.mem_cons] at h ⊢
      rcases h with h | h
      · exact .inr (.inl h)
      · exact (ih h).imp id .inr

/-- A write keeps the canonical form. -/
theorem memSet_wf {m : Memory α} (h : Memory.wf m) (i : Nat) (v : α) : Memory.wf (memSet m i v) := by
  induction m with
  | nil => simp [memSet, Memory.wf]
  | cons d m ih =>
    obtain ⟨j, w⟩ := d
    have ht := List.pairwise_cons.mp h
    simp only [memSet]
    split_ifs with h1 h2
    · refine List.pairwise_cons.mpr ⟨fun a ha => ?_, h⟩
      rcases List.mem_cons.mp ha with rfl | ha
      · exact h1
      · exact Nat.lt_trans h1 (ht.1 a ha)
    · subst h2; exact List.pairwise_cons.mpr ⟨fun a ha => ht.1 a ha, ht.2⟩
    · refine List.pairwise_cons.mpr ⟨fun a ha => ?_, ih ht.2⟩
      rcases mem_memSet ha with rfl | ha
      · show j < i; omega
      · exact ht.1 a ha

/-- A listed element is in the list. -/
theorem memGet_mem {m : Memory α} {i : Nat} {v : α} (h : memGet m i = some v) : (i, v) ∈ m := by
  induction m with
  | nil => simp at h
  | cons d m ih =>
    obtain ⟨j, w⟩ := d
    simp only [memGet] at h
    split at h
    · rename_i hj; cases h; simp [hj]
    · exact List.mem_cons_of_mem _ (ih h)

/-- The empty memory, which is every memory's reset contents, is canonical. -/
theorem wf_nil : Memory.wf ([] : Memory α) := List.Pairwise.nil

/-- A write of a pixel that fits keeps every pixel within its element. -/
theorem memSet_pixelsFit {par : Params} {m : Memory Pixel} (h : PixelsFit par m) (i : Nat) {p : Pixel} (hp : p.Fits par) :
    PixelsFit par (memSet m i p) := by
  intro e he
  rcases mem_memSet he with rfl | he
  · exact hp
  · exact h e he

/-- A capacity that covers a range covers every part of it. -/
theorem capCovers_mono {c : Option Nat} {m n : Nat} (h : capCovers c n = true) (hmn : m ≤ n) : capCovers c m = true := by
  cases c with
  | none => rfl
  | some c => simp only [capCovers, decide_eq_true_eq] at h ⊢; omega

end Sys2Proof.Machine
end

