-- ==== Sys2Proof/Laws/State.lean ====
section
/-! SUPPORT. What each named update of the state does to each field: one lemma per field per update. -/

namespace Sys2Proof.Machine

@[simp] theorem giveAnswer_par (a : Answer) (s : State) : (giveAnswer a s).par = s.par := rfl
@[simp] theorem giveAnswer_width (a : Answer) (s : State) : (giveAnswer a s).width = s.width := rfl
@[simp] theorem giveAnswer_height (a : Answer) (s : State) : (giveAnswer a s).height = s.height := rfl
@[simp] theorem giveAnswer_len (a : Answer) (s : State) : (giveAnswer a s).len = s.len := rfl
@[simp] theorem giveAnswer_outLen (a : Answer) (s : State) : (giveAnswer a s).outLen = s.outLen := rfl
@[simp] theorem giveAnswer_done (a : Answer) (s : State) : (giveAnswer a s).done = s.done := rfl
@[simp] theorem giveAnswer_err (a : Answer) (s : State) : (giveAnswer a s).err = s.err := rfl
@[simp] theorem giveAnswer_phase (a : Answer) (s : State) : (giveAnswer a s).phase = s.phase := rfl
@[simp] theorem giveAnswer_mode (a : Answer) (s : State) : (giveAnswer a s).mode = s.mode := rfl
@[simp] theorem giveAnswer_wL (a : Answer) (s : State) : (giveAnswer a s).wL = s.wL := rfl
@[simp] theorem giveAnswer_hL (a : Answer) (s : State) : (giveAnswer a s).hL = s.hL := rfl
@[simp] theorem giveAnswer_lenL (a : Answer) (s : State) : (giveAnswer a s).lenL = s.lenL := rfl
@[simp] theorem giveAnswer_npix (a : Answer) (s : State) : (giveAnswer a s).npix = s.npix := rfl
@[simp] theorem giveAnswer_nbits (a : Answer) (s : State) : (giveAnswer a s).nbits = s.nbits := rfl
@[simp] theorem giveAnswer_idx (a : Answer) (s : State) : (giveAnswer a s).idx = s.idx := rfl
@[simp] theorem giveAnswer_x (a : Answer) (s : State) : (giveAnswer a s).x = s.x := rfl
@[simp] theorem giveAnswer_y (a : Answer) (s : State) : (giveAnswer a s).y = s.y := rfl
@[simp] theorem giveAnswer_shreg (a : Answer) (s : State) : (giveAnswer a s).shreg = s.shreg := rfl
@[simp] theorem giveAnswer_bitcnt (a : Answer) (s : State) : (giveAnswer a s).bitcnt = s.bitcnt := rfl
@[simp] theorem giveAnswer_prev (a : Answer) (s : State) : (giveAnswer a s).prev = s.prev := rfl
@[simp] theorem giveAnswer_ngrp (a : Answer) (s : State) : (giveAnswer a s).ngrp = s.ngrp := rfl
@[simp] theorem giveAnswer_pixin (a : Answer) (s : State) : (giveAnswer a s).pixin = s.pixin := rfl
@[simp] theorem giveAnswer_pixout (a : Answer) (s : State) : (giveAnswer a s).pixout = s.pixout := rfl
@[simp] theorem giveAnswer_pay (a : Answer) (s : State) : (giveAnswer a s).pay = s.pay := rfl
@[simp] theorem giveAnswer_txt (a : Answer) (s : State) : (giveAnswer a s).txt = s.txt := rfl
@[simp] theorem giveAnswer_moves (a : Answer) (s : State) : (giveAnswer a s).moves = s.moves := rfl
@[simp] theorem giveAnswer_answer (a : Answer) (s : State) : (giveAnswer a s).answer = a := rfl
@[simp] theorem giveAnswer_draws (a : Answer) (s : State) : (giveAnswer a s).draws = s.draws := rfl
@[simp] theorem giveAnswer_stale (a : Answer) (s : State) : (giveAnswer a s).stale = s.stale := rfl

@[simp] theorem raiseError_par (e : ErrorKind) (s : State) : (raiseError e s).par = s.par := rfl
@[simp] theorem raiseError_width (e : ErrorKind) (s : State) : (raiseError e s).width = s.width := rfl
@[simp] theorem raiseError_height (e : ErrorKind) (s : State) : (raiseError e s).height = s.height := rfl
@[simp] theorem raiseError_len (e : ErrorKind) (s : State) : (raiseError e s).len = s.len := rfl
@[simp] theorem raiseError_outLen (e : ErrorKind) (s : State) : (raiseError e s).outLen = s.outLen := rfl
@[simp] theorem raiseError_done (e : ErrorKind) (s : State) : (raiseError e s).done = 1#1 := rfl
@[simp] theorem raiseError_err (e : ErrorKind) (s : State) : (raiseError e s).err = errCode e := rfl
@[simp] theorem raiseError_phase (e : ErrorKind) (s : State) : (raiseError e s).phase = 0b00#2 := rfl
@[simp] theorem raiseError_mode (e : ErrorKind) (s : State) : (raiseError e s).mode = s.mode := rfl
@[simp] theorem raiseError_wL (e : ErrorKind) (s : State) : (raiseError e s).wL = s.wL := rfl
@[simp] theorem raiseError_hL (e : ErrorKind) (s : State) : (raiseError e s).hL = s.hL := rfl
@[simp] theorem raiseError_lenL (e : ErrorKind) (s : State) : (raiseError e s).lenL = s.lenL := rfl
@[simp] theorem raiseError_npix (e : ErrorKind) (s : State) : (raiseError e s).npix = s.npix := rfl
@[simp] theorem raiseError_nbits (e : ErrorKind) (s : State) : (raiseError e s).nbits = s.nbits := rfl
@[simp] theorem raiseError_idx (e : ErrorKind) (s : State) : (raiseError e s).idx = s.idx := rfl
@[simp] theorem raiseError_x (e : ErrorKind) (s : State) : (raiseError e s).x = s.x := rfl
@[simp] theorem raiseError_y (e : ErrorKind) (s : State) : (raiseError e s).y = s.y := rfl
@[simp] theorem raiseError_shreg (e : ErrorKind) (s : State) : (raiseError e s).shreg = s.shreg := rfl
@[simp] theorem raiseError_bitcnt (e : ErrorKind) (s : State) : (raiseError e s).bitcnt = s.bitcnt := rfl
@[simp] theorem raiseError_prev (e : ErrorKind) (s : State) : (raiseError e s).prev = s.prev := rfl
@[simp] theorem raiseError_ngrp (e : ErrorKind) (s : State) : (raiseError e s).ngrp = s.ngrp := rfl
@[simp] theorem raiseError_pixin (e : ErrorKind) (s : State) : (raiseError e s).pixin = s.pixin := rfl
@[simp] theorem raiseError_pixout (e : ErrorKind) (s : State) : (raiseError e s).pixout = s.pixout := rfl
@[simp] theorem raiseError_pay (e : ErrorKind) (s : State) : (raiseError e s).pay = s.pay := rfl
@[simp] theorem raiseError_txt (e : ErrorKind) (s : State) : (raiseError e s).txt = s.txt := rfl
@[simp] theorem raiseError_moves (e : ErrorKind) (s : State) : (raiseError e s).moves = s.moves := rfl
@[simp] theorem raiseError_answer (e : ErrorKind) (s : State) : (raiseError e s).answer = s.answer := rfl
@[simp] theorem raiseError_draws (e : ErrorKind) (s : State) : (raiseError e s).draws = s.draws := rfl
@[simp] theorem raiseError_stale (e : ErrorKind) (s : State) : (raiseError e s).stale = s.stale := rfl

@[simp] theorem completeOk_par (s : State) : (completeOk s).par = s.par := rfl
@[simp] theorem completeOk_width (s : State) : (completeOk s).width = s.width := rfl
@[simp] theorem completeOk_height (s : State) : (completeOk s).height = s.height := rfl
@[simp] theorem completeOk_len (s : State) : (completeOk s).len = s.len := rfl
@[simp] theorem completeOk_outLen (s : State) : (completeOk s).outLen = s.outLen := rfl
@[simp] theorem completeOk_done (s : State) : (completeOk s).done = 1#1 := rfl
@[simp] theorem completeOk_err (s : State) : (completeOk s).err = 0b00#2 := rfl
@[simp] theorem completeOk_phase (s : State) : (completeOk s).phase = 0b00#2 := rfl
@[simp] theorem completeOk_mode (s : State) : (completeOk s).mode = s.mode := rfl
@[simp] theorem completeOk_wL (s : State) : (completeOk s).wL = s.wL := rfl
@[simp] theorem completeOk_hL (s : State) : (completeOk s).hL = s.hL := rfl
@[simp] theorem completeOk_lenL (s : State) : (completeOk s).lenL = s.lenL := rfl
@[simp] theorem completeOk_npix (s : State) : (completeOk s).npix = s.npix := rfl
@[simp] theorem completeOk_nbits (s : State) : (completeOk s).nbits = s.nbits := rfl
@[simp] theorem completeOk_idx (s : State) : (completeOk s).idx = s.idx := rfl
@[simp] theorem completeOk_x (s : State) : (completeOk s).x = s.x := rfl
@[simp] theorem completeOk_y (s : State) : (completeOk s).y = s.y := rfl
@[simp] theorem completeOk_shreg (s : State) : (completeOk s).shreg = s.shreg := rfl
@[simp] theorem completeOk_bitcnt (s : State) : (completeOk s).bitcnt = s.bitcnt := rfl
@[simp] theorem completeOk_prev (s : State) : (completeOk s).prev = s.prev := rfl
@[simp] theorem completeOk_ngrp (s : State) : (completeOk s).ngrp = s.ngrp := rfl
@[simp] theorem completeOk_pixin (s : State) : (completeOk s).pixin = s.pixin := rfl
@[simp] theorem completeOk_pixout (s : State) : (completeOk s).pixout = s.pixout := rfl
@[simp] theorem completeOk_pay (s : State) : (completeOk s).pay = s.pay := rfl
@[simp] theorem completeOk_txt (s : State) : (completeOk s).txt = s.txt := rfl
@[simp] theorem completeOk_moves (s : State) : (completeOk s).moves = s.moves := rfl
@[simp] theorem completeOk_answer (s : State) : (completeOk s).answer = s.answer := rfl
@[simp] theorem completeOk_draws (s : State) : (completeOk s).draws = s.draws := rfl
@[simp] theorem completeOk_stale (s : State) : (completeOk s).stale = s.stale := rfl

@[simp] theorem withdrawText_par (n : Nat) (s : State) : (withdrawText n s).par = s.par := rfl
@[simp] theorem withdrawText_width (n : Nat) (s : State) : (withdrawText n s).width = s.width := rfl
@[simp] theorem withdrawText_height (n : Nat) (s : State) : (withdrawText n s).height = s.height := rfl
@[simp] theorem withdrawText_len (n : Nat) (s : State) : (withdrawText n s).len = s.len := rfl
@[simp] theorem withdrawText_outLen (n : Nat) (s : State) : (withdrawText n s).outLen = s.outLen := rfl
@[simp] theorem withdrawText_done (n : Nat) (s : State) : (withdrawText n s).done = s.done := rfl
@[simp] theorem withdrawText_err (n : Nat) (s : State) : (withdrawText n s).err = s.err := rfl
@[simp] theorem withdrawText_phase (n : Nat) (s : State) : (withdrawText n s).phase = s.phase := rfl
@[simp] theorem withdrawText_mode (n : Nat) (s : State) : (withdrawText n s).mode = s.mode := rfl
@[simp] theorem withdrawText_wL (n : Nat) (s : State) : (withdrawText n s).wL = s.wL := rfl
@[simp] theorem withdrawText_hL (n : Nat) (s : State) : (withdrawText n s).hL = s.hL := rfl
@[simp] theorem withdrawText_lenL (n : Nat) (s : State) : (withdrawText n s).lenL = s.lenL := rfl
@[simp] theorem withdrawText_npix (n : Nat) (s : State) : (withdrawText n s).npix = s.npix := rfl
@[simp] theorem withdrawText_nbits (n : Nat) (s : State) : (withdrawText n s).nbits = s.nbits := rfl
@[simp] theorem withdrawText_idx (n : Nat) (s : State) : (withdrawText n s).idx = s.idx := rfl
@[simp] theorem withdrawText_x (n : Nat) (s : State) : (withdrawText n s).x = s.x := rfl
@[simp] theorem withdrawText_y (n : Nat) (s : State) : (withdrawText n s).y = s.y := rfl
@[simp] theorem withdrawText_shreg (n : Nat) (s : State) : (withdrawText n s).shreg = s.shreg := rfl
@[simp] theorem withdrawText_bitcnt (n : Nat) (s : State) : (withdrawText n s).bitcnt = s.bitcnt := rfl
@[simp] theorem withdrawText_prev (n : Nat) (s : State) : (withdrawText n s).prev = s.prev := rfl
@[simp] theorem withdrawText_ngrp (n : Nat) (s : State) : (withdrawText n s).ngrp = s.ngrp := rfl
@[simp] theorem withdrawText_pixin (n : Nat) (s : State) : (withdrawText n s).pixin = s.pixin := rfl
@[simp] theorem withdrawText_pixout (n : Nat) (s : State) : (withdrawText n s).pixout = s.pixout := rfl
@[simp] theorem withdrawText_pay (n : Nat) (s : State) : (withdrawText n s).pay = s.pay := rfl
@[simp] theorem withdrawText_txt (n : Nat) (s : State) : (withdrawText n s).txt = s.txt := rfl
@[simp] theorem withdrawText_moves (n : Nat) (s : State) : (withdrawText n s).moves = s.moves := rfl
@[simp] theorem withdrawText_answer (n : Nat) (s : State) : (withdrawText n s).answer = s.answer := rfl
@[simp] theorem withdrawText_draws (n : Nat) (s : State) : (withdrawText n s).draws = s.draws := rfl
@[simp] theorem withdrawText_stale (n : Nat) (s : State) : (withdrawText n s).stale = (s.txt.map Prod.fst).filter fun i => decide (n ≤ i) := rfl

@[simp] theorem latch_par (m : BitVec 1) (s : State) : (latch m s).par = s.par := rfl
@[simp] theorem latch_width (m : BitVec 1) (s : State) : (latch m s).width = s.width := rfl
@[simp] theorem latch_height (m : BitVec 1) (s : State) : (latch m s).height = s.height := rfl
@[simp] theorem latch_len (m : BitVec 1) (s : State) : (latch m s).len = s.len := rfl
@[simp] theorem latch_outLen (m : BitVec 1) (s : State) : (latch m s).outLen = 0 := rfl
@[simp] theorem latch_done (m : BitVec 1) (s : State) : (latch m s).done = 0#1 := rfl
@[simp] theorem latch_err (m : BitVec 1) (s : State) : (latch m s).err = 0b00#2 := rfl
@[simp] theorem latch_phase (m : BitVec 1) (s : State) : (latch m s).phase = 0b01#2 := rfl
@[simp] theorem latch_mode (m : BitVec 1) (s : State) : (latch m s).mode = m := rfl
@[simp] theorem latch_wL (m : BitVec 1) (s : State) : (latch m s).wL = s.width := rfl
@[simp] theorem latch_hL (m : BitVec 1) (s : State) : (latch m s).hL = s.height := rfl
@[simp] theorem latch_lenL (m : BitVec 1) (s : State) : (latch m s).lenL = s.len := rfl
@[simp] theorem latch_npix (m : BitVec 1) (s : State) : (latch m s).npix = s.width * s.height := rfl
@[simp] theorem latch_nbits (m : BitVec 1) (s : State) : (latch m s).nbits = 8 * s.len + 16 := rfl
@[simp] theorem latch_idx (m : BitVec 1) (s : State) : (latch m s).idx = 0 := rfl
@[simp] theorem latch_x (m : BitVec 1) (s : State) : (latch m s).x = 0 := rfl
@[simp] theorem latch_y (m : BitVec 1) (s : State) : (latch m s).y = 0 := rfl
@[simp] theorem latch_shreg (m : BitVec 1) (s : State) : (latch m s).shreg = 0#8 := rfl
@[simp] theorem latch_bitcnt (m : BitVec 1) (s : State) : (latch m s).bitcnt = 0#3 := rfl
@[simp] theorem latch_prev (m : BitVec 1) (s : State) : (latch m s).prev = 0#8 := rfl
@[simp] theorem latch_ngrp (m : BitVec 1) (s : State) : (latch m s).ngrp = 0 := rfl
@[simp] theorem latch_pixin (m : BitVec 1) (s : State) : (latch m s).pixin = s.pixin := rfl
@[simp] theorem latch_pixout (m : BitVec 1) (s : State) : (latch m s).pixout = s.pixout := rfl
@[simp] theorem latch_pay (m : BitVec 1) (s : State) : (latch m s).pay = s.pay := rfl
@[simp] theorem latch_txt (m : BitVec 1) (s : State) : (latch m s).txt = s.txt := rfl
@[simp] theorem latch_moves (m : BitVec 1) (s : State) : (latch m s).moves = s.moves := rfl
@[simp] theorem latch_answer (m : BitVec 1) (s : State) : (latch m s).answer = s.answer := rfl
@[simp] theorem latch_draws (m : BitVec 1) (s : State) : (latch m s).draws = s.draws := rfl
@[simp] theorem latch_stale (m : BitVec 1) (s : State) : (latch m s).stale = s.stale := rfl

@[simp] theorem advance_par (s : State) : (advance s).par = s.par := rfl
@[simp] theorem advance_width (s : State) : (advance s).width = s.width := rfl
@[simp] theorem advance_height (s : State) : (advance s).height = s.height := rfl
@[simp] theorem advance_len (s : State) : (advance s).len = s.len := rfl
@[simp] theorem advance_outLen (s : State) : (advance s).outLen = s.outLen := rfl
@[simp] theorem advance_done (s : State) : (advance s).done = s.done := rfl
@[simp] theorem advance_err (s : State) : (advance s).err = s.err := rfl
@[simp] theorem advance_phase (s : State) : (advance s).phase = s.phase := rfl
@[simp] theorem advance_mode (s : State) : (advance s).mode = s.mode := rfl
@[simp] theorem advance_wL (s : State) : (advance s).wL = s.wL := rfl
@[simp] theorem advance_hL (s : State) : (advance s).hL = s.hL := rfl
@[simp] theorem advance_lenL (s : State) : (advance s).lenL = s.lenL := rfl
@[simp] theorem advance_npix (s : State) : (advance s).npix = s.npix := rfl
@[simp] theorem advance_nbits (s : State) : (advance s).nbits = s.nbits := rfl
@[simp] theorem advance_idx (s : State) : (advance s).idx = s.idx + 1 := rfl
@[simp] theorem advance_x (s : State) : (advance s).x = if s.x + 1 = s.wL then 0 else s.x + 1 := rfl
@[simp] theorem advance_y (s : State) : (advance s).y = if s.x + 1 = s.wL then s.y + 1 else s.y := rfl
@[simp] theorem advance_shreg (s : State) : (advance s).shreg = s.shreg := rfl
@[simp] theorem advance_bitcnt (s : State) : (advance s).bitcnt = s.bitcnt := rfl
@[simp] theorem advance_prev (s : State) : (advance s).prev = s.prev := rfl
@[simp] theorem advance_ngrp (s : State) : (advance s).ngrp = s.ngrp := rfl
@[simp] theorem advance_pixin (s : State) : (advance s).pixin = s.pixin := rfl
@[simp] theorem advance_pixout (s : State) : (advance s).pixout = s.pixout := rfl
@[simp] theorem advance_pay (s : State) : (advance s).pay = s.pay := rfl
@[simp] theorem advance_txt (s : State) : (advance s).txt = s.txt := rfl
@[simp] theorem advance_moves (s : State) : (advance s).moves = s.moves := rfl
@[simp] theorem advance_answer (s : State) : (advance s).answer = s.answer := rfl
@[simp] theorem advance_draws (s : State) : (advance s).draws = s.draws := rfl
@[simp] theorem advance_stale (s : State) : (advance s).stale = s.stale := rfl

@[simp] theorem assertReset_par (s : State) : (assertReset s).par = s.par := rfl
@[simp] theorem assertReset_width (s : State) : (assertReset s).width = 0 := rfl
@[simp] theorem assertReset_height (s : State) : (assertReset s).height = 0 := rfl
@[simp] theorem assertReset_len (s : State) : (assertReset s).len = 0 := rfl
@[simp] theorem assertReset_outLen (s : State) : (assertReset s).outLen = 0 := rfl
@[simp] theorem assertReset_done (s : State) : (assertReset s).done = 0#1 := rfl
@[simp] theorem assertReset_err (s : State) : (assertReset s).err = 0b00#2 := rfl
@[simp] theorem assertReset_phase (s : State) : (assertReset s).phase = 0b00#2 := rfl
@[simp] theorem assertReset_mode (s : State) : (assertReset s).mode = s.mode := rfl
@[simp] theorem assertReset_wL (s : State) : (assertReset s).wL = s.wL := rfl
@[simp] theorem assertReset_hL (s : State) : (assertReset s).hL = s.hL := rfl
@[simp] theorem assertReset_lenL (s : State) : (assertReset s).lenL = s.lenL := rfl
@[simp] theorem assertReset_npix (s : State) : (assertReset s).npix = s.npix := rfl
@[simp] theorem assertReset_nbits (s : State) : (assertReset s).nbits = s.nbits := rfl
@[simp] theorem assertReset_idx (s : State) : (assertReset s).idx = s.idx := rfl
@[simp] theorem assertReset_x (s : State) : (assertReset s).x = s.x := rfl
@[simp] theorem assertReset_y (s : State) : (assertReset s).y = s.y := rfl
@[simp] theorem assertReset_shreg (s : State) : (assertReset s).shreg = s.shreg := rfl
@[simp] theorem assertReset_bitcnt (s : State) : (assertReset s).bitcnt = s.bitcnt := rfl
@[simp] theorem assertReset_prev (s : State) : (assertReset s).prev = s.prev := rfl
@[simp] theorem assertReset_ngrp (s : State) : (assertReset s).ngrp = s.ngrp := rfl
@[simp] theorem assertReset_pixin (s : State) : (assertReset s).pixin = s.pixin := rfl
@[simp] theorem assertReset_pixout (s : State) : (assertReset s).pixout = [] := rfl
@[simp] theorem assertReset_pay (s : State) : (assertReset s).pay = s.pay := rfl
@[simp] theorem assertReset_txt (s : State) : (assertReset s).txt = [] := rfl
@[simp] theorem assertReset_moves (s : State) : (assertReset s).moves = s.moves := rfl
@[simp] theorem assertReset_answer (s : State) : (assertReset s).answer = s.answer := rfl
@[simp] theorem assertReset_draws (s : State) : (assertReset s).draws = s.draws := rfl
@[simp] theorem assertReset_stale (s : State) : (assertReset s).stale = [] := rfl

@[simp] theorem popMove_par (s : State) : (popMove s).par = s.par := rfl
@[simp] theorem popMove_width (s : State) : (popMove s).width = s.width := rfl
@[simp] theorem popMove_height (s : State) : (popMove s).height = s.height := rfl
@[simp] theorem popMove_len (s : State) : (popMove s).len = s.len := rfl
@[simp] theorem popMove_outLen (s : State) : (popMove s).outLen = s.outLen := rfl
@[simp] theorem popMove_done (s : State) : (popMove s).done = s.done := rfl
@[simp] theorem popMove_err (s : State) : (popMove s).err = s.err := rfl
@[simp] theorem popMove_phase (s : State) : (popMove s).phase = s.phase := rfl
@[simp] theorem popMove_mode (s : State) : (popMove s).mode = s.mode := rfl
@[simp] theorem popMove_wL (s : State) : (popMove s).wL = s.wL := rfl
@[simp] theorem popMove_hL (s : State) : (popMove s).hL = s.hL := rfl
@[simp] theorem popMove_lenL (s : State) : (popMove s).lenL = s.lenL := rfl
@[simp] theorem popMove_npix (s : State) : (popMove s).npix = s.npix := rfl
@[simp] theorem popMove_nbits (s : State) : (popMove s).nbits = s.nbits := rfl
@[simp] theorem popMove_idx (s : State) : (popMove s).idx = s.idx := rfl
@[simp] theorem popMove_x (s : State) : (popMove s).x = s.x := rfl
@[simp] theorem popMove_y (s : State) : (popMove s).y = s.y := rfl
@[simp] theorem popMove_shreg (s : State) : (popMove s).shreg = s.shreg := rfl
@[simp] theorem popMove_bitcnt (s : State) : (popMove s).bitcnt = s.bitcnt := rfl
@[simp] theorem popMove_prev (s : State) : (popMove s).prev = s.prev := rfl
@[simp] theorem popMove_ngrp (s : State) : (popMove s).ngrp = s.ngrp := rfl
@[simp] theorem popMove_pixin (s : State) : (popMove s).pixin = s.pixin := rfl
@[simp] theorem popMove_pixout (s : State) : (popMove s).pixout = s.pixout := rfl
@[simp] theorem popMove_pay (s : State) : (popMove s).pay = s.pay := rfl
@[simp] theorem popMove_txt (s : State) : (popMove s).txt = s.txt := rfl
@[simp] theorem popMove_moves (s : State) : (popMove s).moves = s.moves.tail := rfl
@[simp] theorem popMove_answer (s : State) : (popMove s).answer = s.answer := rfl
@[simp] theorem popMove_draws (s : State) : (popMove s).draws = s.draws := rfl
@[simp] theorem popMove_stale (s : State) : (popMove s).stale = s.stale := rfl

@[simp] theorem drawPixel_par (s : State) : (drawPixel s).2.par = s.par := rfl
@[simp] theorem drawPixel_width (s : State) : (drawPixel s).2.width = s.width := rfl
@[simp] theorem drawPixel_height (s : State) : (drawPixel s).2.height = s.height := rfl
@[simp] theorem drawPixel_len (s : State) : (drawPixel s).2.len = s.len := rfl
@[simp] theorem drawPixel_outLen (s : State) : (drawPixel s).2.outLen = s.outLen := rfl
@[simp] theorem drawPixel_done (s : State) : (drawPixel s).2.done = s.done := rfl
@[simp] theorem drawPixel_err (s : State) : (drawPixel s).2.err = s.err := rfl
@[simp] theorem drawPixel_phase (s : State) : (drawPixel s).2.phase = s.phase := rfl
@[simp] theorem drawPixel_mode (s : State) : (drawPixel s).2.mode = s.mode := rfl
@[simp] theorem drawPixel_wL (s : State) : (drawPixel s).2.wL = s.wL := rfl
@[simp] theorem drawPixel_hL (s : State) : (drawPixel s).2.hL = s.hL := rfl
@[simp] theorem drawPixel_lenL (s : State) : (drawPixel s).2.lenL = s.lenL := rfl
@[simp] theorem drawPixel_npix (s : State) : (drawPixel s).2.npix = s.npix := rfl
@[simp] theorem drawPixel_nbits (s : State) : (drawPixel s).2.nbits = s.nbits := rfl
@[simp] theorem drawPixel_idx (s : State) : (drawPixel s).2.idx = s.idx := rfl
@[simp] theorem drawPixel_x (s : State) : (drawPixel s).2.x = s.x := rfl
@[simp] theorem drawPixel_y (s : State) : (drawPixel s).2.y = s.y := rfl
@[simp] theorem drawPixel_shreg (s : State) : (drawPixel s).2.shreg = s.shreg := rfl
@[simp] theorem drawPixel_bitcnt (s : State) : (drawPixel s).2.bitcnt = s.bitcnt := rfl
@[simp] theorem drawPixel_prev (s : State) : (drawPixel s).2.prev = s.prev := rfl
@[simp] theorem drawPixel_ngrp (s : State) : (drawPixel s).2.ngrp = s.ngrp := rfl
@[simp] theorem drawPixel_pixin (s : State) : (drawPixel s).2.pixin = s.pixin := rfl
@[simp] theorem drawPixel_pixout (s : State) : (drawPixel s).2.pixout = s.pixout := rfl
@[simp] theorem drawPixel_pay (s : State) : (drawPixel s).2.pay = s.pay := rfl
@[simp] theorem drawPixel_txt (s : State) : (drawPixel s).2.txt = s.txt := rfl
@[simp] theorem drawPixel_moves (s : State) : (drawPixel s).2.moves = s.moves := rfl
@[simp] theorem drawPixel_answer (s : State) : (drawPixel s).2.answer = s.answer := rfl
@[simp] theorem drawPixel_draws (s : State) : (drawPixel s).2.draws = s.draws + 1 := rfl
@[simp] theorem drawPixel_stale (s : State) : (drawPixel s).2.stale = s.stale := rfl

@[simp] theorem drawByte_par (s : State) : (drawByte s).2.par = s.par := rfl
@[simp] theorem drawByte_width (s : State) : (drawByte s).2.width = s.width := rfl
@[simp] theorem drawByte_height (s : State) : (drawByte s).2.height = s.height := rfl
@[simp] theorem drawByte_len (s : State) : (drawByte s).2.len = s.len := rfl
@[simp] theorem drawByte_outLen (s : State) : (drawByte s).2.outLen = s.outLen := rfl
@[simp] theorem drawByte_done (s : State) : (drawByte s).2.done = s.done := rfl
@[simp] theorem drawByte_err (s : State) : (drawByte s).2.err = s.err := rfl
@[simp] theorem drawByte_phase (s : State) : (drawByte s).2.phase = s.phase := rfl
@[simp] theorem drawByte_mode (s : State) : (drawByte s).2.mode = s.mode := rfl
@[simp] theorem drawByte_wL (s : State) : (drawByte s).2.wL = s.wL := rfl
@[simp] theorem drawByte_hL (s : State) : (drawByte s).2.hL = s.hL := rfl
@[simp] theorem drawByte_lenL (s : State) : (drawByte s).2.lenL = s.lenL := rfl
@[simp] theorem drawByte_npix (s : State) : (drawByte s).2.npix = s.npix := rfl
@[simp] theorem drawByte_nbits (s : State) : (drawByte s).2.nbits = s.nbits := rfl
@[simp] theorem drawByte_idx (s : State) : (drawByte s).2.idx = s.idx := rfl
@[simp] theorem drawByte_x (s : State) : (drawByte s).2.x = s.x := rfl
@[simp] theorem drawByte_y (s : State) : (drawByte s).2.y = s.y := rfl
@[simp] theorem drawByte_shreg (s : State) : (drawByte s).2.shreg = s.shreg := rfl
@[simp] theorem drawByte_bitcnt (s : State) : (drawByte s).2.bitcnt = s.bitcnt := rfl
@[simp] theorem drawByte_prev (s : State) : (drawByte s).2.prev = s.prev := rfl
@[simp] theorem drawByte_ngrp (s : State) : (drawByte s).2.ngrp = s.ngrp := rfl
@[simp] theorem drawByte_pixin (s : State) : (drawByte s).2.pixin = s.pixin := rfl
@[simp] theorem drawByte_pixout (s : State) : (drawByte s).2.pixout = s.pixout := rfl
@[simp] theorem drawByte_pay (s : State) : (drawByte s).2.pay = s.pay := rfl
@[simp] theorem drawByte_txt (s : State) : (drawByte s).2.txt = s.txt := rfl
@[simp] theorem drawByte_moves (s : State) : (drawByte s).2.moves = s.moves := rfl
@[simp] theorem drawByte_answer (s : State) : (drawByte s).2.answer = s.answer := rfl
@[simp] theorem drawByte_draws (s : State) : (drawByte s).2.draws = s.draws + 1 := rfl
@[simp] theorem drawByte_stale (s : State) : (drawByte s).2.stale = s.stale := rfl

@[simp] theorem drawBit_par (s : State) : (drawBit s).2.par = s.par := rfl
@[simp] theorem drawBit_width (s : State) : (drawBit s).2.width = s.width := rfl
@[simp] theorem drawBit_height (s : State) : (drawBit s).2.height = s.height := rfl
@[simp] theorem drawBit_len (s : State) : (drawBit s).2.len = s.len := rfl
@[simp] theorem drawBit_outLen (s : State) : (drawBit s).2.outLen = s.outLen := rfl
@[simp] theorem drawBit_done (s : State) : (drawBit s).2.done = s.done := rfl
@[simp] theorem drawBit_err (s : State) : (drawBit s).2.err = s.err := rfl
@[simp] theorem drawBit_phase (s : State) : (drawBit s).2.phase = s.phase := rfl
@[simp] theorem drawBit_mode (s : State) : (drawBit s).2.mode = s.mode := rfl
@[simp] theorem drawBit_wL (s : State) : (drawBit s).2.wL = s.wL := rfl
@[simp] theorem drawBit_hL (s : State) : (drawBit s).2.hL = s.hL := rfl
@[simp] theorem drawBit_lenL (s : State) : (drawBit s).2.lenL = s.lenL := rfl
@[simp] theorem drawBit_npix (s : State) : (drawBit s).2.npix = s.npix := rfl
@[simp] theorem drawBit_nbits (s : State) : (drawBit s).2.nbits = s.nbits := rfl
@[simp] theorem drawBit_idx (s : State) : (drawBit s).2.idx = s.idx := rfl
@[simp] theorem drawBit_x (s : State) : (drawBit s).2.x = s.x := rfl
@[simp] theorem drawBit_y (s : State) : (drawBit s).2.y = s.y := rfl
@[simp] theorem drawBit_shreg (s : State) : (drawBit s).2.shreg = s.shreg := rfl
@[simp] theorem drawBit_bitcnt (s : State) : (drawBit s).2.bitcnt = s.bitcnt := rfl
@[simp] theorem drawBit_prev (s : State) : (drawBit s).2.prev = s.prev := rfl
@[simp] theorem drawBit_ngrp (s : State) : (drawBit s).2.ngrp = s.ngrp := rfl
@[simp] theorem drawBit_pixin (s : State) : (drawBit s).2.pixin = s.pixin := rfl
@[simp] theorem drawBit_pixout (s : State) : (drawBit s).2.pixout = s.pixout := rfl
@[simp] theorem drawBit_pay (s : State) : (drawBit s).2.pay = s.pay := rfl
@[simp] theorem drawBit_txt (s : State) : (drawBit s).2.txt = s.txt := rfl
@[simp] theorem drawBit_moves (s : State) : (drawBit s).2.moves = s.moves := rfl
@[simp] theorem drawBit_answer (s : State) : (drawBit s).2.answer = s.answer := rfl
@[simp] theorem drawBit_draws (s : State) : (drawBit s).2.draws = s.draws + 1 := rfl
@[simp] theorem drawBit_stale (s : State) : (drawBit s).2.stale = s.stale := rfl

@[simp] theorem setPixel_par (S : PixelSpace) (i : Nat) (v : Pixel) (s : State) : (setPixel S i v s).par = s.par := by
  cases S <;> rfl
@[simp] theorem setPixel_width (S : PixelSpace) (i : Nat) (v : Pixel) (s : State) : (setPixel S i v s).width = s.width := by
  cases S <;> rfl
@[simp] theorem setPixel_height (S : PixelSpace) (i : Nat) (v : Pixel) (s : State) : (setPixel S i v s).height = s.height := by
  cases S <;> rfl
@[simp] theorem setPixel_len (S : PixelSpace) (i : Nat) (v : Pixel) (s : State) : (setPixel S i v s).len = s.len := by
  cases S <;> rfl
@[simp] theorem setPixel_outLen (S : PixelSpace) (i : Nat) (v : Pixel) (s : State) : (setPixel S i v s).outLen = s.outLen := by
  cases S <;> rfl
@[simp] theorem setPixel_done (S : PixelSpace) (i : Nat) (v : Pixel) (s : State) : (setPixel S i v s).done = s.done := by
  cases S <;> rfl
@[simp] theorem setPixel_err (S : PixelSpace) (i : Nat) (v : Pixel) (s : State) : (setPixel S i v s).err = s.err := by
  cases S <;> rfl
@[simp] theorem setPixel_phase (S : PixelSpace) (i : Nat) (v : Pixel) (s : State) : (setPixel S i v s).phase = s.phase := by
  cases S <;> rfl
@[simp] theorem setPixel_mode (S : PixelSpace) (i : Nat) (v : Pixel) (s : State) : (setPixel S i v s).mode = s.mode := by
  cases S <;> rfl
@[simp] theorem setPixel_wL (S : PixelSpace) (i : Nat) (v : Pixel) (s : State) : (setPixel S i v s).wL = s.wL := by
  cases S <;> rfl
@[simp] theorem setPixel_hL (S : PixelSpace) (i : Nat) (v : Pixel) (s : State) : (setPixel S i v s).hL = s.hL := by
  cases S <;> rfl
@[simp] theorem setPixel_lenL (S : PixelSpace) (i : Nat) (v : Pixel) (s : State) : (setPixel S i v s).lenL = s.lenL := by
  cases S <;> rfl
@[simp] theorem setPixel_npix (S : PixelSpace) (i : Nat) (v : Pixel) (s : State) : (setPixel S i v s).npix = s.npix := by
  cases S <;> rfl
@[simp] theorem setPixel_nbits (S : PixelSpace) (i : Nat) (v : Pixel) (s : State) : (setPixel S i v s).nbits = s.nbits := by
  cases S <;> rfl
@[simp] theorem setPixel_idx (S : PixelSpace) (i : Nat) (v : Pixel) (s : State) : (setPixel S i v s).idx = s.idx := by
  cases S <;> rfl
@[simp] theorem setPixel_x (S : PixelSpace) (i : Nat) (v : Pixel) (s : State) : (setPixel S i v s).x = s.x := by
  cases S <;> rfl
@[simp] theorem setPixel_y (S : PixelSpace) (i : Nat) (v : Pixel) (s : State) : (setPixel S i v s).y = s.y := by
  cases S <;> rfl
@[simp] theorem setPixel_shreg (S : PixelSpace) (i : Nat) (v : Pixel) (s : State) : (setPixel S i v s).shreg = s.shreg := by
  cases S <;> rfl
@[simp] theorem setPixel_bitcnt (S : PixelSpace) (i : Nat) (v : Pixel) (s : State) : (setPixel S i v s).bitcnt = s.bitcnt := by
  cases S <;> rfl
@[simp] theorem setPixel_prev (S : PixelSpace) (i : Nat) (v : Pixel) (s : State) : (setPixel S i v s).prev = s.prev := by
  cases S <;> rfl
@[simp] theorem setPixel_ngrp (S : PixelSpace) (i : Nat) (v : Pixel) (s : State) : (setPixel S i v s).ngrp = s.ngrp := by
  cases S <;> rfl
@[simp] theorem setPixel_pixin_pixin (i : Nat) (v : Pixel) (s : State) : (setPixel .pixin i v s).pixin = memSet s.pixin i v := rfl
@[simp] theorem setPixel_pixout_pixin (i : Nat) (v : Pixel) (s : State) : (setPixel .pixout i v s).pixin = s.pixin := rfl
@[simp] theorem setPixel_pixin_pixout (i : Nat) (v : Pixel) (s : State) : (setPixel .pixin i v s).pixout = s.pixout := rfl
@[simp] theorem setPixel_pixout_pixout (i : Nat) (v : Pixel) (s : State) : (setPixel .pixout i v s).pixout = memSet s.pixout i v := rfl
@[simp] theorem setPixel_pay (S : PixelSpace) (i : Nat) (v : Pixel) (s : State) : (setPixel S i v s).pay = s.pay := by
  cases S <;> rfl
@[simp] theorem setPixel_txt (S : PixelSpace) (i : Nat) (v : Pixel) (s : State) : (setPixel S i v s).txt = s.txt := by
  cases S <;> rfl
@[simp] theorem setPixel_moves (S : PixelSpace) (i : Nat) (v : Pixel) (s : State) : (setPixel S i v s).moves = s.moves := by
  cases S <;> rfl
@[simp] theorem setPixel_answer (S : PixelSpace) (i : Nat) (v : Pixel) (s : State) : (setPixel S i v s).answer = s.answer := by
  cases S <;> rfl
@[simp] theorem setPixel_draws (S : PixelSpace) (i : Nat) (v : Pixel) (s : State) : (setPixel S i v s).draws = s.draws := by
  cases S <;> rfl
@[simp] theorem setPixel_stale (S : PixelSpace) (i : Nat) (v : Pixel) (s : State) : (setPixel S i v s).stale = s.stale := by
  cases S <;> rfl

@[simp] theorem setByte_par (S : ByteSpace) (i : Nat) (v : Byte) (s : State) : (setByte S i v s).par = s.par := by
  cases S <;> rfl
@[simp] theorem setByte_width (S : ByteSpace) (i : Nat) (v : Byte) (s : State) : (setByte S i v s).width = s.width := by
  cases S <;> rfl
@[simp] theorem setByte_height (S : ByteSpace) (i : Nat) (v : Byte) (s : State) : (setByte S i v s).height = s.height := by
  cases S <;> rfl
@[simp] theorem setByte_len (S : ByteSpace) (i : Nat) (v : Byte) (s : State) : (setByte S i v s).len = s.len := by
  cases S <;> rfl
@[simp] theorem setByte_outLen (S : ByteSpace) (i : Nat) (v : Byte) (s : State) : (setByte S i v s).outLen = s.outLen := by
  cases S <;> rfl
@[simp] theorem setByte_done (S : ByteSpace) (i : Nat) (v : Byte) (s : State) : (setByte S i v s).done = s.done := by
  cases S <;> rfl
@[simp] theorem setByte_err (S : ByteSpace) (i : Nat) (v : Byte) (s : State) : (setByte S i v s).err = s.err := by
  cases S <;> rfl
@[simp] theorem setByte_phase (S : ByteSpace) (i : Nat) (v : Byte) (s : State) : (setByte S i v s).phase = s.phase := by
  cases S <;> rfl
@[simp] theorem setByte_mode (S : ByteSpace) (i : Nat) (v : Byte) (s : State) : (setByte S i v s).mode = s.mode := by
  cases S <;> rfl
@[simp] theorem setByte_wL (S : ByteSpace) (i : Nat) (v : Byte) (s : State) : (setByte S i v s).wL = s.wL := by
  cases S <;> rfl
@[simp] theorem setByte_hL (S : ByteSpace) (i : Nat) (v : Byte) (s : State) : (setByte S i v s).hL = s.hL := by
  cases S <;> rfl
@[simp] theorem setByte_lenL (S : ByteSpace) (i : Nat) (v : Byte) (s : State) : (setByte S i v s).lenL = s.lenL := by
  cases S <;> rfl
@[simp] theorem setByte_npix (S : ByteSpace) (i : Nat) (v : Byte) (s : State) : (setByte S i v s).npix = s.npix := by
  cases S <;> rfl
@[simp] theorem setByte_nbits (S : ByteSpace) (i : Nat) (v : Byte) (s : State) : (setByte S i v s).nbits = s.nbits := by
  cases S <;> rfl
@[simp] theorem setByte_idx (S : ByteSpace) (i : Nat) (v : Byte) (s : State) : (setByte S i v s).idx = s.idx := by
  cases S <;> rfl
@[simp] theorem setByte_x (S : ByteSpace) (i : Nat) (v : Byte) (s : State) : (setByte S i v s).x = s.x := by
  cases S <;> rfl
@[simp] theorem setByte_y (S : ByteSpace) (i : Nat) (v : Byte) (s : State) : (setByte S i v s).y = s.y := by
  cases S <;> rfl
@[simp] theorem setByte_shreg (S : ByteSpace) (i : Nat) (v : Byte) (s : State) : (setByte S i v s).shreg = s.shreg := by
  cases S <;> rfl
@[simp] theorem setByte_bitcnt (S : ByteSpace) (i : Nat) (v : Byte) (s : State) : (setByte S i v s).bitcnt = s.bitcnt := by
  cases S <;> rfl
@[simp] theorem setByte_prev (S : ByteSpace) (i : Nat) (v : Byte) (s : State) : (setByte S i v s).prev = s.prev := by
  cases S <;> rfl
@[simp] theorem setByte_ngrp (S : ByteSpace) (i : Nat) (v : Byte) (s : State) : (setByte S i v s).ngrp = s.ngrp := by
  cases S <;> rfl
@[simp] theorem setByte_pixin (S : ByteSpace) (i : Nat) (v : Byte) (s : State) : (setByte S i v s).pixin = s.pixin := by
  cases S <;> rfl
@[simp] theorem setByte_pixout (S : ByteSpace) (i : Nat) (v : Byte) (s : State) : (setByte S i v s).pixout = s.pixout := by
  cases S <;> rfl
@[simp] theorem setByte_pay_pay (i : Nat) (v : Byte) (s : State) : (setByte .pay i v s).pay = memSet s.pay i v := rfl
@[simp] theorem setByte_txt_pay (i : Nat) (v : Byte) (s : State) : (setByte .txt i v s).pay = s.pay := rfl
@[simp] theorem setByte_pay_txt (i : Nat) (v : Byte) (s : State) : (setByte .pay i v s).txt = s.txt := rfl
@[simp] theorem setByte_txt_txt (i : Nat) (v : Byte) (s : State) : (setByte .txt i v s).txt = memSet s.txt i v := rfl
@[simp] theorem setByte_moves (S : ByteSpace) (i : Nat) (v : Byte) (s : State) : (setByte S i v s).moves = s.moves := by
  cases S <;> rfl
@[simp] theorem setByte_answer (S : ByteSpace) (i : Nat) (v : Byte) (s : State) : (setByte S i v s).answer = s.answer := by
  cases S <;> rfl
@[simp] theorem setByte_draws (S : ByteSpace) (i : Nat) (v : Byte) (s : State) : (setByte S i v s).draws = s.draws := by
  cases S <;> rfl
@[simp] theorem setByte_stale (S : ByteSpace) (i : Nat) (v : Byte) (s : State) : (setByte S i v s).stale = s.stale := by
  cases S <;> rfl

@[simp] theorem schedule_par (ms : List Move) (s : State) : (schedule ms s).par = s.par := rfl
@[simp] theorem schedule_width (ms : List Move) (s : State) : (schedule ms s).width = s.width := rfl
@[simp] theorem schedule_height (ms : List Move) (s : State) : (schedule ms s).height = s.height := rfl
@[simp] theorem schedule_len (ms : List Move) (s : State) : (schedule ms s).len = s.len := rfl
@[simp] theorem schedule_outLen (ms : List Move) (s : State) : (schedule ms s).outLen = s.outLen := rfl
@[simp] theorem schedule_done (ms : List Move) (s : State) : (schedule ms s).done = s.done := rfl
@[simp] theorem schedule_err (ms : List Move) (s : State) : (schedule ms s).err = s.err := rfl
@[simp] theorem schedule_phase (ms : List Move) (s : State) : (schedule ms s).phase = s.phase := rfl
@[simp] theorem schedule_mode (ms : List Move) (s : State) : (schedule ms s).mode = s.mode := rfl
@[simp] theorem schedule_wL (ms : List Move) (s : State) : (schedule ms s).wL = s.wL := rfl
@[simp] theorem schedule_hL (ms : List Move) (s : State) : (schedule ms s).hL = s.hL := rfl
@[simp] theorem schedule_lenL (ms : List Move) (s : State) : (schedule ms s).lenL = s.lenL := rfl
@[simp] theorem schedule_npix (ms : List Move) (s : State) : (schedule ms s).npix = s.npix := rfl
@[simp] theorem schedule_nbits (ms : List Move) (s : State) : (schedule ms s).nbits = s.nbits := rfl
@[simp] theorem schedule_idx (ms : List Move) (s : State) : (schedule ms s).idx = s.idx := rfl
@[simp] theorem schedule_x (ms : List Move) (s : State) : (schedule ms s).x = s.x := rfl
@[simp] theorem schedule_y (ms : List Move) (s : State) : (schedule ms s).y = s.y := rfl
@[simp] theorem schedule_shreg (ms : List Move) (s : State) : (schedule ms s).shreg = s.shreg := rfl
@[simp] theorem schedule_bitcnt (ms : List Move) (s : State) : (schedule ms s).bitcnt = s.bitcnt := rfl
@[simp] theorem schedule_prev (ms : List Move) (s : State) : (schedule ms s).prev = s.prev := rfl
@[simp] theorem schedule_ngrp (ms : List Move) (s : State) : (schedule ms s).ngrp = s.ngrp := rfl
@[simp] theorem schedule_pixin (ms : List Move) (s : State) : (schedule ms s).pixin = s.pixin := rfl
@[simp] theorem schedule_pixout (ms : List Move) (s : State) : (schedule ms s).pixout = s.pixout := rfl
@[simp] theorem schedule_pay (ms : List Move) (s : State) : (schedule ms s).pay = s.pay := rfl
@[simp] theorem schedule_txt (ms : List Move) (s : State) : (schedule ms s).txt = s.txt := rfl
@[simp] theorem schedule_moves (ms : List Move) (s : State) : (schedule ms s).moves = ms ++ s.moves := rfl
@[simp] theorem schedule_answer (ms : List Move) (s : State) : (schedule ms s).answer = s.answer := rfl
@[simp] theorem schedule_draws (ms : List Move) (s : State) : (schedule ms s).draws = s.draws := rfl
@[simp] theorem schedule_stale (ms : List Move) (s : State) : (schedule ms s).stale = s.stale := rfl

end Sys2Proof.Machine
end

