-- ==== Sys2Proof/Laws/Ops.lean ====
section
/-! SUPPORT. What each shared operation can do, said once. -/

namespace Sys2Proof.Machine

/-- MemRead of a pixel: the listed element and no change, or a draw. -/
theorem readPixel_cases {S : PixelSpace} {i : Nat} {s t : State} {p : Pixel} (h : readPixel S i s = .ok (p, t)) :
    (memGet (pixelMem S s) i = some p ∧ t = s) ∨ (memGet (pixelMem S s) i = none ∧ (p, t) = drawPixel s) := by
  unfold readPixel at h
  split at h
  · split at h
    · cases h; exact .inl ⟨‹_›, rfl⟩
    · cases h; exact .inr ⟨‹_›, rfl⟩
  · cases h

/-- MemRead of a pixel writes nothing but the draw counter. -/
theorem readPixel_frame {S : PixelSpace} {i : Nat} {s t : State} {p : Pixel} (h : readPixel S i s = .ok (p, t)) :
    t = { s with draws := t.draws } := by
  rcases readPixel_cases h with ⟨_, rfl⟩ | ⟨_, h2⟩
  · rfl
  · cases h2; rfl

/-- MemRead of a listed pixel within the capacity. -/
theorem readPixel_listed {S : PixelSpace} {i : Nat} {s : State} {p : Pixel} (hc : capCovers s.par.capPix (i + 1) = true)
    (h : memGet (pixelMem S s) i = some p) : readPixel S i s = .ok (p, s) := by
  simp [readPixel, hc, h]

/-- MemRead of an unlisted pixel within the capacity draws. -/
theorem readPixel_unlisted {S : PixelSpace} {i : Nat} {s : State} (hc : capCovers s.par.capPix (i + 1) = true)
    (h : memGet (pixelMem S s) i = none) : readPixel S i s = .ok (drawPixel s) := by
  simp [readPixel, hc, h]

/-- MemRead of a pixel within the capacity answers. -/
theorem readPixel_total (S : PixelSpace) {i : Nat} {s : State} (hc : capCovers s.par.capPix (i + 1) = true) :
    ∃ p t, readPixel S i s = .ok (p, t) := by
  cases h : memGet (pixelMem S s) i with
  | none => exact ⟨_, _, readPixel_unlisted hc h⟩
  | some p => exact ⟨_, _, readPixel_listed hc h⟩

/-- A drawn pixel fits its element. -/
theorem drawPixel_fits (s : State) : (drawPixel s).1.Fits s.par := Nat.mod_lt _ (Nat.two_pow_pos _)

/-- A pixel read from a memory whose pixels fit, fits. -/
theorem readPixel_fits {S : PixelSpace} {i : Nat} {s t : State} {p : Pixel} (h : readPixel S i s = .ok (p, t))
    (hm : PixelsFit s.par (pixelMem S s)) : p.Fits s.par := by
  rcases readPixel_cases h with ⟨h1, _⟩ | ⟨_, h2⟩
  · exact hm _ (memGet_mem h1)
  · have : p = (drawPixel s).1 := congrArg Prod.fst h2
    exact this ▸ drawPixel_fits s

/-- MemRead of a byte: the listed element and no change, or a draw. -/
theorem readByte_cases {S : ByteSpace} {i : Nat} {s t : State} {b : Byte} (h : readByte S i s = .ok (b, t)) :
    (memGet (byteMem S s) i = some b ∧ t = s) ∨ (memGet (byteMem S s) i = none ∧ (b, t) = drawByte s) := by
  unfold readByte at h
  split at h
  · split at h
    · cases h; exact .inl ⟨‹_›, rfl⟩
    · cases h; exact .inr ⟨‹_›, rfl⟩
  · cases h

/-- MemRead of a byte writes nothing but the draw counter. -/
theorem readByte_frame {S : ByteSpace} {i : Nat} {s t : State} {b : Byte} (h : readByte S i s = .ok (b, t)) :
    t = { s with draws := t.draws } := by
  rcases readByte_cases h with ⟨_, rfl⟩ | ⟨_, h2⟩
  · rfl
  · cases h2; rfl

/-- MemRead of a listed byte within the capacity. -/
theorem readByte_listed {S : ByteSpace} {i : Nat} {s : State} {b : Byte} (hc : capCovers (byteCap S s.par) (i + 1) = true)
    (h : memGet (byteMem S s) i = some b) : readByte S i s = .ok (b, s) := by
  simp [readByte, hc, h]

/-- MemRead of a byte within the capacity answers. -/
theorem readByte_total (S : ByteSpace) {i : Nat} {s : State} (hc : capCovers (byteCap S s.par) (i + 1) = true) :
    ∃ b t, readByte S i s = .ok (b, t) := by
  cases h : memGet (byteMem S s) i with
  | none => exact ⟨_, _, by simp only [readByte, hc, h, if_true]; rfl⟩
  | some b => exact ⟨_, _, readByte_listed hc h⟩

/-- MemWrite of a pixel sets one element. -/
theorem writePixel_ok {S : PixelSpace} {i : Nat} {p : Pixel} {s t : State} (h : writePixel S i p s = .ok t) :
    t = setPixel S i p s := by
  unfold writePixel at h
  split at h
  · cases h; rfl
  · cases h

/-- MemWrite of a byte sets one element. -/
theorem writeByte_ok {S : ByteSpace} {i : Nat} {b : Byte} {s t : State} (h : writeByte S i b s = .ok t) :
    t = setByte S i b s := by
  unfold writeByte at h
  split at h
  · cases h; rfl
  · cases h

/-- FRAMEBIT writes nothing but the draw counter. -/
theorem frameBit_frame {i : Nat} {s t : State} {b : Bool} (h : frameBit i s = .ok (b, t)) : t = { s with draws := t.draws } := by
  unfold frameBit at h
  split at h
  · cases h; rfl
  · split at h
    · split at h
      · cases h; exact readByte_frame ‹_›
      · cases h
    · cases h; rfl

/-- FRAMEBIT answers when PAY's capacity covers the payload. -/
theorem frameBit_total (i : Nat) {s : State} (hc : capCovers s.par.capPay s.lenL = true) : ∃ b t, frameBit i s = .ok (b, t) := by
  unfold frameBit
  split
  · exact ⟨_, _, rfl⟩
  · split
    · obtain ⟨b, t, h⟩ := readByte_total .pay (s := s) (i := i / 8) (capCovers_mono hc (by omega))
      exact ⟨_, _, by rw [h]⟩
    · exact ⟨_, _, rfl⟩

/-- START of a command: ignored while one runs, refused beyond the capacities, or the latch (R203, R71). -/
theorem startCommand_cases (mode : BitVec 1) (s : State) :
    (s.phase ≠ 0b00#2 ∧ startCommand mode s = .next s) ∨
    (s.phase = 0b00#2 ∧ capacitiesCover mode s = true ∧ startCommand mode s = .next (latch mode s)) ∨
    (s.phase = 0b00#2 ∧ capacitiesCover mode s = false ∧ startCommand mode s = .refused .memoryTooSmall) := by
  unfold startCommand
  by_cases h : s.phase = 0b00#2 <;> by_cases h2 : capacitiesCover mode s = true <;> simp [h, h2]

/-- One pixel of ENCODE: PIXOUT at that index is set and free values may be drawn; nothing else changes (R167). -/
theorem encodePixel_cases {i : Nat} {s t : State} (h : encodePixel i s = .ok t) :
    ∃ p q s1, readPixel .pixin i s = .ok (p, s1) ∧ t = setPixel .pixout i q { s with draws := t.draws } ∧
      (q = p ∨ ∃ b, q = writeBit p b) := by
  unfold encodePixel at h
  split at h
  · cases h
  · rename_i p s1 hr
    have h1 := readPixel_frame hr
    split at h
    · split at h
      · cases h
      · rename_i b s2 hf
        have h2 := frameBit_frame hf
        have h3 := writePixel_ok h
        refine ⟨p, _, s1, hr, ?_, .inr ⟨b, rfl⟩⟩
        rw [h3, h2, h1]; rfl
    · have h3 := writePixel_ok h
      refine ⟨p, _, s1, hr, ?_, .inl rfl⟩
      rw [h3, h1]; rfl

/-- WRITEBIT keeps a pixel within its element: the extra bits are carried through (R125). -/
theorem writeBit_fits {par : Params} {p : Pixel} (h : p.Fits par) (b : Bool) : (writeBit p b).Fits par := h

end Sys2Proof.Machine
end

