-- ==== Sys2Proof/Laws/Passes.lean ====
section
/-! SUPPORT. What the operations over many elements can do, said once; and that no operation on a memory breaks its canonical form. -/

namespace Sys2Proof.Machine

/-- ENCODE's pass writes PIXOUT and draws, nothing else (spec/20_memory.md R64). -/
theorem encodePass_frame {n : Nat} : ∀ {i : Nat} {s t : State}, encodePass n i s = .ok t →
    t = { s with pixout := t.pixout, draws := t.draws } := by
  induction n with
  | zero => intro i s t h; cases h; rfl
  | succ n ih =>
    intro i s t h
    simp only [encodePass] at h
    split at h
    · rename_i s' hs'
      obtain ⟨p, q, s1, _, hs, _⟩ := encodePixel_cases hs'
      rw [ih h, hs]; rfl
    · cases h

/-- DECODE's whole read gives one bit per pixel and writes nothing but the draw counter (spec/43_decoder.md R180). -/
theorem readBits_frame {n : Nat} : ∀ {i : Nat} {s t : State} {bits : Bitstream}, readBits n i s = .ok (bits, t) →
    t = { s with draws := t.draws } ∧ bits.length = n := by
  induction n with
  | zero => intro i s t bits h; cases h; exact ⟨rfl, rfl⟩
  | succ n ih =>
    intro i s t bits h
    simp only [readBits] at h
    split at h
    · cases h
    · rename_i hr
      split at h
      · rename_i h2
        cases h
        obtain ⟨h3, h4⟩ := ih h2
        exact ⟨by rw [h3, readPixel_frame hr], by simp [h4]⟩
      · cases h

/-- Writing a text changes TXT alone (R180). -/
theorem writeText_frame {l : List Byte} : ∀ {k : Nat} {s t : State}, writeText k l s = .ok t → t = { s with txt := t.txt } := by
  induction l with
  | nil => intro k s t h; cases h; rfl
  | cons v l ih =>
    intro k s t h
    simp only [writeText] at h
    split at h
    · rename_i hw; rw [ih h, writeByte_ok hw]; rfl
    · cases h

/-- A text found in a bitstream is shorter than its groups by the marker (spec/43_decoder.md R184). -/
theorem unframeFrom_length (n : Nat) : ∀ (bits : Bitstream) (text r : List Byte), bits.length ≤ n →
    unframeFrom text bits = some r → r.length + 1 ≤ text.length + bits.length / 8 := by
  induction n with
  | zero =>
    intro bits text r hn h
    have : bits = [] := by simpa using hn
    subst this; simp [unframeFrom] at h
  | succ n ih =>
    intro bits text r hn h
    unfold unframeFrom at h
    split at h
    · rename_i rest
      simp only [List.length_cons] at hn ⊢
      split at h
      · rename_i hc
        cases h
        have hne : text ≠ [] := by rintro rfl; simp at hc
        have : text.length ≠ 0 := by simpa using hne
        simp; omega
      · have := ih rest _ r (by omega) h
        simp at this; omega
    · cases h

/-- A host read of a byte writes nothing but the draw counter. -/
theorem hostReadByte_frame {S : ByteSpace} {i : Nat} {s t : State} {b : Byte} (h : hostReadByte S i s = .ok (b, t)) :
    t = { s with draws := t.draws } := by
  unfold hostReadByte at h
  split at h
  · exact readByte_frame h
  · split at h
    · rename_i hr
      split at h
      · cases h; rfl
      · cases h; exact readByte_frame hr
    · cases h

/-- DRAIN of pixels writes nothing but the draw counter (spec/20_memory.md R67). -/
theorem drainPixels_frame {S : PixelSpace} {is : List Nat} : ∀ {s t : State} {ps : List Pixel},
    drainPixels S is s = .ok (ps, t) → t = { s with draws := t.draws } := by
  induction is with
  | nil => intro s t ps h; cases h; rfl
  | cons i is ih =>
    intro s t ps h
    simp only [drainPixels] at h
    split at h
    · cases h
    · rename_i hr
      split at h
      · rename_i h2; cases h; rw [ih h2, readPixel_frame hr]
      · cases h

/-- DRAIN of bytes writes nothing but the draw counter (R67). -/
theorem drainBytes_frame {S : ByteSpace} {is : List Nat} : ∀ {s t : State} {bs : List Byte},
    drainBytes S is s = .ok (bs, t) → t = { s with draws := t.draws } := by
  induction is with
  | nil => intro s t bs h; cases h; rfl
  | cons i is ih =>
    intro s t bs h
    simp only [drainBytes] at h
    split at h
    · cases h
    · rename_i hr
      split at h
      · rename_i h2; cases h; rw [ih h2, hostReadByte_frame hr]
      · cases h

/-! The canonical form. -/

theorem setPixel_canonical {s : State} (h : MemoriesCanonical s) (S : PixelSpace) (i : Nat) (p : Pixel) :
    MemoriesCanonical (setPixel S i p s) := by
  cases S
  · exact ⟨memSet_wf h.pixin i p, h.pixout, h.pay, h.txt⟩
  · exact ⟨h.pixin, memSet_wf h.pixout i p, h.pay, h.txt⟩

theorem setByte_canonical {s : State} (h : MemoriesCanonical s) (S : ByteSpace) (i : Nat) (b : Byte) :
    MemoriesCanonical (setByte S i b s) := by
  cases S
  · exact ⟨h.pixin, h.pixout, memSet_wf h.pay i b, h.txt⟩
  · exact ⟨h.pixin, h.pixout, h.pay, memSet_wf h.txt i b⟩

theorem writePixel_canonical {s t : State} (h : MemoriesCanonical s) {S : PixelSpace} {i : Nat} {p : Pixel}
    (hw : writePixel S i p s = .ok t) : MemoriesCanonical t := writePixel_ok hw ▸ setPixel_canonical h S i p

theorem writeByte_canonical {s t : State} (h : MemoriesCanonical s) {S : ByteSpace} {i : Nat} {b : Byte}
    (hw : writeByte S i b s = .ok t) : MemoriesCanonical t := writeByte_ok hw ▸ setByte_canonical h S i b

theorem hostWriteByte_canonical {s t : State} (h : MemoriesCanonical s) {S : ByteSpace} {i : Nat} {b : Byte}
    (hw : hostWriteByte S i b s = .ok t) : MemoriesCanonical t := by
  unfold hostWriteByte at hw
  split at hw
  · rename_i h2
    cases hw
    exact ⟨(writeByte_canonical h h2).pixin, (writeByte_canonical h h2).pixout, (writeByte_canonical h h2).pay,
      (writeByte_canonical h h2).txt⟩
  · exact writeByte_canonical h hw

theorem writeText_canonical {l : List Byte} : ∀ {k : Nat} {s t : State}, MemoriesCanonical s → writeText k l s = .ok t →
    MemoriesCanonical t := by
  induction l with
  | nil => intro k s t hs h; cases h; exact hs
  | cons v l ih =>
    intro k s t hs h
    simp only [writeText] at h
    split at h
    · rename_i hw; exact ih (writeByte_canonical hs hw) h
    · cases h

theorem fillPixels_canonical {S : PixelSpace} {es : List (Nat × Pixel)} : ∀ {s t : State}, MemoriesCanonical s →
    fillPixels S es s = .ok t → MemoriesCanonical t := by
  induction es with
  | nil => intro s t hs h; cases h; exact hs
  | cons e es ih =>
    intro s t hs h
    simp only [fillPixels] at h
    split at h
    · rename_i hw; exact ih (writePixel_canonical hs hw) h
    · cases h

theorem fillBytes_canonical {S : ByteSpace} {es : List (Nat × Byte)} : ∀ {s t : State}, MemoriesCanonical s →
    fillBytes S es s = .ok t → MemoriesCanonical t := by
  induction es with
  | nil => intro s t hs h; cases h; exact hs
  | cons e es ih =>
    intro s t hs h
    simp only [fillBytes] at h
    split at h
    · rename_i hw; exact ih (hostWriteByte_canonical hs hw) h
    · cases h

theorem encodePixel_canonical {i : Nat} {s t : State} (hs : MemoriesCanonical s) (h : encodePixel i s = .ok t) :
    MemoriesCanonical t := by
  obtain ⟨p, q, s1, _, ht, _⟩ := encodePixel_cases h
  rw [ht]
  exact setPixel_canonical (s := { s with draws := t.draws }) ⟨hs.pixin, hs.pixout, hs.pay, hs.txt⟩ _ _ _

theorem encodePass_canonical {n : Nat} : ∀ {i : Nat} {s t : State}, MemoriesCanonical s → encodePass n i s = .ok t →
    MemoriesCanonical t := by
  induction n with
  | zero => intro i s t hs h; cases h; exact hs
  | succ n ih =>
    intro i s t hs h
    simp only [encodePass] at h
    split at h
    · rename_i h1; exact ih (encodePixel_canonical hs h1) h
    · cases h

/-- Reset leaves every memory canonical: the two it clears and the two it keeps. -/
theorem assertReset_canonical {s : State} (h : MemoriesCanonical s) : MemoriesCanonical (assertReset s) :=
  ⟨h.pixin, wf_nil, h.pay, wf_nil⟩

/-- The memories of the reset state are canonical. -/
theorem reset_memories_canonical : MemoriesCanonical State.reset := ⟨wf_nil, wf_nil, wf_nil, wf_nil⟩

end Sys2Proof.Machine
end

