-- ==== Sys2Proof/Laws/PerInstr.lean ====
section
/-! SUPPORT. Statements made per operation, one lemma per constructor of Instr. -/

namespace Sys2Proof.Laws

/-- An operation that has a bit pattern has a word of one byte whose bits above bit 2 are 0 (spec/30_encoding.md R101, R103). -/
def OneByteWords.Statement (i : Instr) : Prop := ∀ f bs, encode i = some (f, bs) → ∃ b : Byte, bs = [b] ∧ b.toNat < 8

theorem OneByteWords.nop : OneByteWords.Statement .nop := by intro f bs h; cases h; exact ⟨_, rfl, by decide⟩
theorem OneByteWords.encode : OneByteWords.Statement .encode := by intro f bs h; cases h; exact ⟨_, rfl, by decide⟩
theorem OneByteWords.decode : OneByteWords.Statement .decode := by intro f bs h; cases h; exact ⟨_, rfl, by decide⟩
theorem OneByteWords.reservedOp3 : OneByteWords.Statement .reservedOp3 := by intro f bs h; cases h; exact ⟨_, rfl, by decide⟩
theorem OneByteWords.encCheck : OneByteWords.Statement .encCheck := by intro f bs h; cases h; exact ⟨_, rfl, by decide⟩
theorem OneByteWords.decCheck : OneByteWords.Statement .decCheck := by intro f bs h; cases h; exact ⟨_, rfl, by decide⟩
theorem OneByteWords.encStepPixel : OneByteWords.Statement .encStepPixel := by intro f bs h; cases h; exact ⟨_, rfl, by decide⟩
theorem OneByteWords.encStepEnd : OneByteWords.Statement .encStepEnd := by intro f bs h; cases h; exact ⟨_, rfl, by decide⟩
theorem OneByteWords.decStepPixel : OneByteWords.Statement .decStepPixel := by intro f bs h; cases h; exact ⟨_, rfl, by decide⟩
theorem OneByteWords.decStepEnd : OneByteWords.Statement .decStepEnd := by intro f bs h; cases h; exact ⟨_, rfl, by decide⟩
theorem OneByteWords.positions (w h : Nat) : OneByteWords.Statement (.positions w h) := by intro f bs hc; cases hc
theorem OneByteWords.next : OneByteWords.Statement .next := by intro f bs h; cases h
theorem OneByteWords.readbit (p : Pixel) : OneByteWords.Statement (.readbit p) := by intro f bs h; cases h
theorem OneByteWords.writebit (p : Pixel) (b : Bool) : OneByteWords.Statement (.writebit p b) := by intro f bs h; cases h
theorem OneByteWords.muxsel (i n : Nat) : OneByteWords.Statement (.muxsel i n) := by intro f bs h; cases h
theorem OneByteWords.frame (t : List Byte) : OneByteWords.Statement (.frame t) := by intro f bs h; cases h
theorem OneByteWords.framebit (i : Nat) : OneByteWords.Statement (.framebit i) := by intro f bs h; cases h
theorem OneByteWords.unframe (s : Bitstream) : OneByteWords.Statement (.unframe s) := by intro f bs h; cases h
theorem OneByteWords.wr (reg value : Nat) : OneByteWords.Statement (.wr reg value) := by intro f bs h; cases h
theorem OneByteWords.rd (reg : Nat) : OneByteWords.Statement (.rd reg) := by intro f bs h; cases h
theorem OneByteWords.start (op : BitVec 2) : OneByteWords.Statement (.start op) := by intro f bs h; cases h
theorem OneByteWords.wait : OneByteWords.Statement .wait := by intro f bs h; cases h
theorem OneByteWords.fill (op : FillOp) : OneByteWords.Statement (.fill op) := by intro f bs h; cases h
theorem OneByteWords.drain (d : DrainOp) : OneByteWords.Statement (.drain d) := by intro f bs h; cases h

end Sys2Proof.Laws
end

