-- ==== Sys2Proof/Laws/Step.lean ====
section
/-! SUPPORT. Everything one step can do, said once (log 2). -/

namespace Sys2Proof.Machine

/-- Performing what was fetched: nothing for an idle engine, else a well-formed operation's effect. -/
theorem perform_cases {f : Except DecodeError Instr} {s t : State} (h : perform f s = .next t) :
    (f = .error .idle ∧ t = s) ∨ ∃ i, f = .ok i ∧ wellFormed s.par i = true ∧ exec i s = .next t := by
  unfold perform at h
  split at h
  · split at h
    · exact .inr ⟨_, rfl, ‹_›, h⟩
    · cases h
  · cases h; exact .inl ⟨rfl, rfl⟩
  · cases h

/-- A host's decision touches the schedule and the answer alone (spec/44_host_commands.md R207, R208). -/
theorem hostTest_frame {d : HostTest} {s t : State} (h : hostTest d s = .next t) :
    t = { s with moves := t.moves, answer := t.answer } := by
  unfold hostTest at h
  split at h
  · split at h <;> (cases h; rfl)
  · split at h <;> (cases h; rfl)
  · cases h; rfl
  · cases h; rfl
  · cases h

/-- A step resets, lets the host decide, or takes the schedule's head away (if there is one) and then idles or performs one well-formed operation. -/
theorem step_cases {s t : State} (h : step s = .next t) :
    (s.moves.head? = some .reset ∧ t = assertReset (popMove s)) ∨
    (∃ d, s.moves.head? = some (.test d) ∧ hostTest d (popMove s) = .next t) ∨
    ∃ s0, (s0 = s ∨ s0 = popMove s) ∧ (t = s0 ∨ ∃ i, wellFormed s0.par i = true ∧ exec i s0 = .next t) := by
  unfold step takeMove at h
  split at h
  · refine .inr (.inr ⟨s, .inl rfl, ?_⟩)
    rcases perform_cases h with ⟨_, h1⟩ | ⟨i, _, h2, h3⟩
    · exact .inl h1
    · exact .inr ⟨i, h2, h3⟩
  · cases h; exact .inl ⟨‹_›, rfl⟩
  · exact .inr (.inl ⟨_, ‹_›, h⟩)
  · refine .inr (.inr ⟨popMove s, .inr rfl, ?_⟩)
    rcases perform_cases h with ⟨_, h1⟩ | ⟨i, _, h2, h3⟩
    · exact .inl h1
    · exact .inr ⟨i, h2, h3⟩

end Sys2Proof.Machine
end

