-- ==== Sys2Proof/Tests/Slice0.lean ====
section
/-! SUPPORT. Own tests: ill-formed terms are refused, words written out from the spec's encodings decode, each operation's effect on
a case of spec/95_test_vectors.md, and for each obligation a state and operands that meet its hypotheses. -/

namespace Sys2Proof.Tests

open Sys2Proof Sys2Proof.Machine

/-! ### Helpers -/

/-- A field of the next state, if there is one. -/
def get {α : Type} (o : Host.Outcome State Fault Refusal) (f : State → α) : Option α :=
  match o with
  | .next s => some (f s)
  | .fault _ => none
  | .refused _ => none

/-- The refusal, if there is one. -/
def refusal (o : Host.Outcome State Fault Refusal) : Option Refusal :=
  match o with
  | .next _ => none
  | .fault _ => none
  | .refused r => some r

/-- The fault, if there is one. -/
def fault (o : Host.Outcome State Fault Refusal) : Option Fault :=
  match o with
  | .next _ => none
  | .fault f => some f
  | .refused _ => none

theorem next_of_get {α : Type} {o : Host.Outcome State Fault Refusal} {f : State → α} {a : α} (h : get o f = some a) :
    ∃ t, o = .next t ∧ f t = a := by
  cases o with
  | next s => exact ⟨s, rfl, by simpa [get] using h⟩
  | fault f => simp [get] at h
  | refused r => simp [get] at h

/-- A pixel with no extra bits. -/
def px (r g b : Byte) : Pixel := ⟨0, r, g, b⟩

/-- White, the carrier of V1. -/
def white : Pixel := px 255 255 255

/-- An idle block whose host has set its operands and filled PIXIN and PAY. -/
def loaded (w h : Nat) (grid : List Pixel) (pay : List Byte) : State :=
  { State.reset with width := w, height := h, len := pay.length, pixin := placeFrom 0 grid, pay := placeFrom 0 pay }

/-- V1: a white 5 × 5 carrier, payload "A". -/
def v1 : State := loaded 5 5 (List.replicate 25 white) [0x41]

/-- The red low bits of V2's grid. -/
def v2Bits : Bitstream := [false, true, false, false, false, false, false, true] ++ List.replicate 15 true ++ [false, true]

/-- V2: the grid with those low bits, red 254 or 255. -/
def v2 : State := loaded 5 5 (v2Bits.map fun b => px (if b then 255 else 254) 255 255) []

/-- An engine in a given phase, mode and position, with a W_L × H_L grid latched. -/
def engine (s : State) (phase : BitVec 2) (mode : BitVec 1) (idx : Nat) : State :=
  { latch mode s with phase := phase, idx := idx, x := idx % s.width, y := idx / s.width }

/-- The engine of V2 in the middle of the pass, as P5's trace has it. -/
def p5 (idx : Nat) (shreg prev : Byte) : State :=
  { engine v2 0b10 1 idx with shreg := shreg, bitcnt := BitVec.ofNat 3 (idx % 8), prev := prev, ngrp := idx / 8 }

/-- Capacities of exactly the given numbers of elements. -/
def capped (s : State) (pix pay txt : Nat) : State :=
  { s with par := { s.par with capPix := some pix, capPay := some pay, capTxt := some txt } }

def holdsCheck {α : Type} [DecidableEq α] (m : Memory α) (l : List α) : Bool :=
  (List.range l.length).all fun k => decide (memGet m k = l[k]?)

theorem holds_of_check {α : Type} [DecidableEq α] {m : Memory α} {l : List α} (h : holdsCheck m l = true) : Holds m l := by
  intro k v hv
  have hk : k < l.length := by
    rcases Nat.lt_or_ge k l.length with h1 | h1
    · exact h1
    · simp [List.getElem?_eq_none h1] at hv
  simp only [holdsCheck, List.all_eq_true, List.mem_range, decide_eq_true_eq] at h
  rw [h k hk, hv]

/-! ### Well-formedness: an ill-formed term for each check, refused (spec/30_encoding.md R90, spec/40_bit_sequencer.md R121, R127) -/

theorem test_ill_formed_positions_width : wellFormed Params.defaults (.positions (2 ^ 16) 1) = false := by decide
theorem test_ill_formed_positions_height : wellFormed Params.defaults (.positions 1 (2 ^ 16)) = false := by decide
theorem test_well_formed_positions : wellFormed Params.defaults (.positions 65535 65535) = true := by decide
theorem test_ill_formed_readbit : wellFormed Params.defaults (.readbit ⟨1, 0, 0, 0⟩) = false := by decide
theorem test_ill_formed_writebit : wellFormed { Params.defaults with xch := 8 } (.writebit ⟨256, 0, 0, 0⟩ true) = false := by decide
theorem test_ill_formed_muxsel : wellFormed Params.defaults (.muxsel 0 (2 ^ 32)) = false := by decide
theorem test_ill_formed_fill_one : wellFormed Params.defaults (.fill (.pixels .pixin (.one 0 ⟨1, 0, 0, 0⟩))) = false := by decide
theorem test_ill_formed_fill_range :
    wellFormed Params.defaults (.fill (.pixels .pixout (.range 0 3 ⟨1, 0, 0, 0⟩))) = false := by decide
theorem test_ill_formed_fill_list :
    wellFormed Params.defaults (.fill (.pixels .pixin (.list 0 [white, ⟨1, 0, 0, 0⟩]))) = false := by decide
theorem test_step_refuses_ill_formed :
    refusal (step { State.reset with moves := [.host (.fill (.pixels .pixin (.one 0 ⟨1, 0, 0, 0⟩)))] }) = some .illFormed := by
  decide

/-! ### Decoding: words written out from R101, R103, R105 -/

theorem test_decode_nop : decode .cmd [0b00000000] = .ok (.nop, []) := by decide
theorem test_decode_encode : decode .cmd [0b00000001] = .ok (.encode, []) := by decide
theorem test_decode_decode : decode .cmd [0b00000010] = .ok (.decode, []) := by decide
theorem test_decode_reserved : decode .cmd [0b00000011] = .ok (.reservedOp3, []) := by decide
/-- V22, step 4: the value 5 on CMD is ENCODE. -/
theorem test_decode_high_bits_ignored : decode .cmd [0b00000101, 0xAA] = .ok (.encode, [0xAA]) := by decide
theorem test_decode_enc_check : decode (.step .pixel) [0b00000010] = .ok (.encCheck, []) := by decide
theorem test_decode_dec_check : decode (.step .last) [0b00000011] = .ok (.decCheck, []) := by decide
theorem test_decode_enc_step_pixel : decode (.step .pixel) [0b00000100] = .ok (.encStepPixel, []) := by decide
theorem test_decode_enc_step_end : decode (.step .last) [0b00000100] = .ok (.encStepEnd, []) := by decide
theorem test_decode_dec_step_pixel : decode (.step .pixel) [0b00000101] = .ok (.decStepPixel, []) := by decide
theorem test_decode_dec_step_end : decode (.step .last) [0b00000101] = .ok (.decStepEnd, []) := by decide
theorem test_decode_idle : decode (.step .pixel) [0b00000001] = .error .idle := by decide
theorem test_decode_unreachable : decode (.step .pixel) [0b00000111] = .error .unreachable := by decide
theorem test_decode_no_arm : decode (.step .beyond) [0b00000100] = .error .noArm := by decide
theorem test_decode_long_step_word : decode (.step .pixel) [0b00001010] = .error .notAStepWord := by decide
theorem test_decode_no_byte : decode .cmd [] = .error .noByte := by decide
theorem test_table_words : decodeTableWord 8 0 = some .nop ∧ decodeTableWord 8 1 = some .encode ∧ decodeTableWord 8 2 = some .decode ∧
    decodeTableWord 8 3 = some .reservedOp3 ∧ decodeTableWord 8 4 = some .encStepPixel ∧ decodeTableWord 8 5 = some .decStepPixel ∧
    decodeTableWord 8 6 = none ∧ decodeTableWord 3 2 = some .encCheck ∧ decodeTableWord 3 3 = some .decCheck := by decide
/-- V22: ENCODE from reset ends in InvalidInput, DECODE in NotFound; the step word 4 runs one pixel. -/
theorem test_fetch_table_words :
    get (step (State.reset.withFetchWord 8 1)) statusWord = some 0b0110 ∧
    get (step (State.reset.withFetchWord 8 2)) statusWord = some 0b1110 ∧
    get (step (State.reset.withFetchWord 8 4)) (fun t => (t.idx, t.x, t.y)) = some (1, 0, 1) := by decide

/-! ### Operations -/

/-- V22, steps 2 and 3. -/
theorem test_nop : get (exec .nop v1) id = some v1 := by decide
theorem test_reserved : get (exec .reservedOp3 v1) id = some v1 := by decide
/-- V1. -/
theorem test_encode_v1 : get (exec .encode v1) (fun t => (statusWord t, t.outLen, t.pixout.map fun e => e.2.r)) =
    some (0b0010, 0, [254, 255, 254, 254, 254, 254, 254, 255, 255, 255, 255, 255, 255, 255, 255, 255, 255, 255, 255, 255, 255, 255,
      255, 254, 255]) := by decide
/-- V13: 23 × 1 with LEN = 1, one bit over. -/
theorem test_encode_one_bit_over :
    get (exec .encode (loaded 23 1 (List.replicate 23 white) [0x41])) (fun t => (statusWord t, t.pixout)) = some (0b1010, []) := by
  decide
/-- V2. -/
theorem test_decode_v2 : get (exec .decode v2) (fun t => (statusWord t, t.outLen, memGet t.txt 0)) = some (0b0010, 1, some 0x41) := by
  decide
/-- V16: fifteen pixels of red 1. -/
theorem test_decode_one_group : get (exec .decode (loaded 3 5 (List.replicate 15 (px 1 0 0)) [])) (fun t => (statusWord t, t.outLen)) =
    some (0b1110, 0) := by decide
/-- V12's check: 24 bits into 24 pixels pass. -/
theorem test_enc_check_equality : get (exec .encCheck (engine (loaded 6 4 [] [0x41]) 0b01 0 0)) (fun t => (t.phase, statusWord t)) =
    some (0b10, 0b0001) := by decide
/-- V13: zero width with a payload is InvalidInput, not CapacityExceeded. -/
theorem test_enc_check_zero_area : get (exec .encCheck (engine (loaded 0 7 [] [0x41]) 0b01 0 0)) statusWord = some 0b0110 := by decide
theorem test_dec_check : get (exec .decCheck (engine v2 0b01 1 0)) (fun t => (t.phase, statusWord t)) = some (0b10, 0b0001) := by decide
/-- The example of R167. -/
theorem test_enc_step_pixel : get (exec .encStepPixel (engine v1 0b10 0 0)) (fun t => (memGet t.pixout 0, t.idx)) =
    some (some (px 254 255 255), 1) := by decide
/-- V1: index 24 is a PASS pixel and the last. -/
theorem test_enc_step_pass : get (exec .encStepPixel (engine v1 0b10 0 24)) (fun t => (memGet t.pixout 24, t.idx, t.x, t.y)) =
    some (some white, 25, 0, 5) := by decide
theorem test_enc_step_end : get (exec .encStepEnd (engine v1 0b10 0 25)) (fun t => (t.phase, statusWord t)) = some (0b00, 0b0010) := by
  decide
/-- P5, step 9: group 0 completes. -/
theorem test_dec_step_group : get (exec .decStepPixel (p5 7 0x20 0)) (fun t => (memGet t.txt 0, t.prev, t.ngrp, t.shreg, t.bitcnt, t.idx)) =
    some (some 0x41, 0x41, 1, 0, 0, 8) := by decide
/-- P5, step 25: the match. -/
theorem test_dec_step_match : get (exec .decStepPixel (p5 23 0x7F 0xFF)) (fun t => (memGet t.txt 2, t.outLen, statusWord t)) =
    some (some 0xFE, 1, 0b0010) := by decide
theorem test_dec_step_end : get (exec .decStepEnd (p5 25 1 0x41)) (fun t => (statusWord t, t.outLen)) = some (0b1110, 0) := by decide
/-- V3. -/
theorem test_positions : get (exec (.positions 3 2) State.reset) State.answer =
    some (.positions [(0, 0), (1, 0), (2, 0), (0, 1), (1, 1), (2, 1)]) := by decide
theorem test_positions_empty : get (exec (.positions 0 5) State.reset) State.answer = some (.positions []) := by decide
/-- V4: row wrap, and a single column. -/
theorem test_next_wrap : get (exec .next (engine v1 0b10 0 4)) (fun t => (t.idx, t.x, t.y)) = some (5, 0, 1) := by decide
theorem test_next_column : get (exec .next (engine (loaded 1 9 [] []) 0b10 0 6)) (fun t => (t.idx, t.x, t.y)) = some (7, 0, 7) := by decide
/-- V5. -/
theorem test_readbit : get (exec (.readbit (px 254 1 1)) State.reset) State.answer = some (.bit false) := by decide
theorem test_readbit_one : get (exec (.readbit (px 0x41 0 0xFF)) State.reset) State.answer = some (.bit true) := by decide
/-- V6. -/
theorem test_writebit : get (exec (.writebit white false) State.reset) State.answer = some (.pixel (px 254 255 255)) := by decide
theorem test_writebit_extra : get (exec (.writebit ⟨0xAB, 0x30, 0x05, 0xFE⟩ true) State.reset) State.answer =
    some (.pixel ⟨0xAB, 0x31, 0x05, 0xFE⟩) := by decide
/-- V7. -/
theorem test_muxsel : get (exec (.muxsel 31 2) State.reset) State.answer = some (.source .sentinel) := by decide
theorem test_muxsel_exact : get (exec (.muxsel 34359738359 4294967295) State.reset) State.answer = some (.source .payload) := by decide
/-- V8. -/
theorem test_frame : get (exec (.frame [0x80]) State.reset) State.answer =
    some (.stream (true :: List.replicate 7 false ++ List.replicate 15 true ++ [false])) := by decide
/-- V9: PAY:0 bit 6, PAY:1 bit 0, q[15]. -/
theorem test_framebit : ([1, 15, 31].map fun i => get (exec (.framebit i) (engine (loaded 8 5 [] [0x48, 0x69]) 0b10 0 0)) State.answer) =
    [some (.bit true), some (.bit true), some (.bit false)] := by decide
/-- V10. -/
theorem test_unframe : get (exec (.unframe ([0x41, 0xFF, 0xFF, 0xFE].flatMap byteBits)) State.reset) State.answer =
    some (.text (some [0x41, 0xFF])) := by decide
theorem test_unframe_straddle : get (exec (.unframe ([0x41, 0xFF].flatMap byteBits ++ List.replicate 7 true)) State.reset) State.answer =
    some (.text none) := by decide
/-- V22, step 8. -/
theorem test_wr_width : get (exec (.wr 2 0x12345) State.reset) State.width = some 0x2345 := by decide
/-- V22, step 4. -/
theorem test_wr_cmd : get (exec (.wr 0 5) v1) (fun t => (t.phase, t.mode, t.npix, t.nbits)) = some (0b01, 0, 25, 24) := by decide
/-- V21. -/
theorem test_rd_status : get (exec (.rd 1) { State.reset with done := 1, err := 0b10 }) State.answer = some (.value 10) := by decide
theorem test_rd_no_register : get (exec (.rd 6) v1) State.answer = some (.value 0) := by decide
/-- The example of R203. -/
theorem test_start : get (exec (.start 0b01) v1) (fun t => (t.mode, t.npix, t.nbits, t.phase, statusWord t)) =
    some (0, 25, 24, 0b01, 0b0001) := by decide
/-- V23. -/
theorem test_start_busy : get (exec (.start 0b10) (engine v1 0b10 0 3)) id = some (engine v1 0b10 0 3) := by decide
theorem test_wait_idle : get (exec .wait State.reset) (fun t => (t.answer, t.moves)) = some (.value 0, []) := by decide
theorem test_wait_busy : get (exec .wait (engine v1 0b10 0 3)) (fun t => (t.answer, t.moves)) =
    some (.value 1, [.engine, .host .wait]) := by decide
/-- The notation of R205: both ends included. -/
theorem test_fill_range : get (exec (.fill (.pixels .pixin (.range 1 2 white))) State.reset) State.pixin =
    some [(1, white), (2, white)] := by decide
theorem test_fill_list : get (exec (.fill (.bytes .pay (.list 3 [7, 8]))) State.reset) State.pay = some [(3, 7), (4, 8)] := by decide
theorem test_drain : get (exec (.drain (.pixels .pixin (.range 3 4))) v2) State.answer =
    some (.pixels [px 254 255 255, px 254 255 255]) := by decide
/-- A memory of 24 elements has no element 24 (R71). -/
theorem test_drain_missing : fault (exec (.drain (.pixels .pixin (.one 24))) (capped v1 24 1 3)) = some (.noPixelElement .pixin 24) := by
  decide

/-! ### Pseudo-commands: the host's decisions (R207, R208) -/

/-- STATUS 0010 unloads the grid, 1010 is the error CapacityExceeded (P2). -/
theorem test_encode_result :
    get (hostTest (.encodeResult 5 5) { v1 with answer := .value 0b0010 }) State.moves =
      some [.host (.drain (.pixels .pixout (.range 0 24)))] ∧
    get (hostTest (.encodeResult 5 5) { v1 with answer := .value 0b1010 }) State.answer = some (.error 0b10) := by decide
/-- STATUS 1110 is NotFound, 0010 asks for OUT_LEN (P3). -/
theorem test_decode_result :
    get (hostTest .decodeResult { v1 with answer := .value 0b1110 }) State.answer = some (.error 0b11) ∧
    get (hostTest .decodeResult { v1 with answer := .value 0b0010 }) State.moves = some [.host (.rd 5), .test .decodeText] := by decide
/-- OUT_LEN 0 is the empty text (P3); the byte 0xFF is the character of code point 255 (R92). -/
theorem test_decode_text :
    get (hostTest .decodeText { State.reset with answer := .value 2 }) State.moves =
      some [.host (.drain (.bytes .txt (.range 0 1))), .test .decodeChars] ∧
    get (exec (.drain (.bytes .txt (drainFirst 0))) State.reset) State.answer = some (.bytes []) ∧
    get (hostTest .decodeChars { State.reset with answer := .bytes [0x41, 0xFF] }) State.answer = some (.chars [65, 255]) := by decide
theorem test_nothing_returned :
    refusal (step { State.reset with moves := [.test .decodeResult] }) = some .nothingReturned := by decide

/-! ### Steps -/

theorem test_step_idle : get (step State.reset) id = some State.reset := by decide
theorem test_step_reset : get (step { engine v1 0b10 0 3 with moves := [.reset] }) (fun t => (statusWord t, t.width, t.pixin == v1.pixin)) =
    some (0, 0, true) := by decide
theorem test_step_unreachable : fault (step { State.reset with phase := 0b11 }) = some (.unreachableControl .unreachable) := by decide

/-! ### Witnesses: for each obligation with hypotheses, states and operands that meet them, per clause, at boundary values -/

/-- A state with the control registers given, nothing else of interest. -/
def control (phase : BitVec 2) (mode : BitVec 1) (idx npix : Nat) : State :=
  { State.reset with phase := phase, mode := mode, idx := idx, npix := npix, wL := 1, hL := npix }

theorem noCollision_tail : NoCollision [0x41, 0xFF] := by
  intro i ⟨h1, h2⟩
  rcases i with _ | _ | i <;> simp_all

theorem firstCollision_one : FirstCollision [0x41, 0xFF, 0xFE, 0x42] 1 := by
  refine ⟨by decide, by decide, fun j hj => ?_⟩
  have : j = 0 := by omega
  subst this; decide

/-- `EngineStepIsChosenByPhaseModeAndIndex`, all eight clauses; IDX = NPIX − 1 and IDX = NPIX where they meet. -/
theorem witness_engine_dispatch :
    (control 0b00 1 0 0).phase = 0b00#2 ∧
    ((control 0b01 0 0 0).phase = 0b01#2 ∧ (control 0b01 0 0 0).mode = 0#1) ∧
    ((control 0b01 1 0 0).phase = 0b01#2 ∧ (control 0b01 1 0 0).mode = 1#1) ∧
    ((control 0b10 0 24 25).phase = 0b10#2 ∧ (control 0b10 0 24 25).mode = 0#1 ∧ (control 0b10 0 24 25).idx < (control 0b10 0 24 25).npix) ∧
    ((control 0b10 0 25 25).phase = 0b10#2 ∧ (control 0b10 0 25 25).mode = 0#1 ∧ (control 0b10 0 25 25).idx = (control 0b10 0 25 25).npix) ∧
    ((control 0b10 1 24 25).phase = 0b10#2 ∧ (control 0b10 1 24 25).mode = 1#1 ∧ (control 0b10 1 24 25).idx < (control 0b10 1 24 25).npix) ∧
    ((control 0b10 1 0 0).phase = 0b10#2 ∧ (control 0b10 1 0 0).mode = 1#1 ∧ (control 0b10 1 0 0).idx = (control 0b10 1 0 0).npix) ∧
    (control 0b11 0 0 0).phase = 0b11#2 := by decide

/-- `WordsDecodeToTheirOperations`. -/
theorem witness_words :
    encode .decStepEnd = some (.step .last, [0b101]) ∧
    ((0b11111100 : Byte).getLsbD 1 = false ∧ (0b11111100 : Byte).getLsbD 0 = false) ∧
    ((0b11111101 : Byte).getLsbD 1 = false ∧ (0b11111101 : Byte).getLsbD 0 = true) ∧
    ((0b11111110 : Byte).getLsbD 1 = true ∧ (0b11111110 : Byte).getLsbD 0 = false) ∧
    ((0b11111111 : Byte).getLsbD 1 = true ∧ (0b11111111 : Byte).getLsbD 0 = true) := by decide

/-- `PixelWordRoundTrip`, with and without extra bits. -/
theorem witness_pixel_word : (⟨255, 0, 0, 0⟩ : Pixel).x < 2 ^ 8 ∧ white.x < 2 ^ 0 ∧ 7 < 8 := by decide

/-- `StepRunsTheSelectedOperation`, all seven clauses. -/
theorem witness_step :
    ((engine v1 0b10 0 0).moves = [] ∧ fetchEngine (engine v1 0b10 0 0) = .ok .encStepPixel ∧
      wellFormed (engine v1 0b10 0 0).par .encStepPixel = true) ∧
    (let s := { engine v1 0b01 0 0 with moves := [.engine, .reset] };
      s.moves = .engine :: [.reset] ∧ fetchEngine s = .ok .encCheck ∧ wellFormed s.par .encCheck = true) ∧
    (let s := { v1 with moves := [.host (.drain (.bytes .pay (.one 0)))] };
      s.moves = .host (.drain (.bytes .pay (.one 0))) :: [] ∧
        wellFormed s.par (hostInstr (.drain (.bytes .pay (.one 0)))) = true) ∧
    (let s := { v1 with moves := [.call 5] };
      s.moves = .call 5 :: [] ∧ decode .cmd [5] = .ok (.encode, []) ∧ wellFormed s.par .encode = true) ∧
    (let s := { v1 with moves := [.test .decodeResult] };
      s.moves = .test .decodeResult :: []) ∧
    (v1.moves = [] ∧ fetchEngine v1 = .error .idle) ∧
    (let s := { v1 with moves := [.engine] };
      s.moves = .engine :: [] ∧ fetchEngine s = .error .idle) := by decide

/-- `ResetEventEndsTheCommandWithoutOutcome`: in the middle of a pass. -/
theorem witness_reset_event : ({ engine v1 0b10 0 3 with moves := [.reset] } : State).moves = .reset :: [] := by decide

/-- `NopAndReservedWordDoNothing`. -/
theorem witness_nop : (4 % 4 = 0 ∨ 4 % 4 = 3) ∧ (7 % 4 = 0 ∨ 7 % 4 = 3) := by decide

/-- `StartLatchesItsOperands`: both commands, at exactly the capacities; the ignored cases. -/
theorem witness_start :
    ((0b11#2 = 0b00#2 ∨ 0b11#2 = 0b11#2)) ∧ (engine v1 0b01 0 0).phase ≠ 0b00#2 ∧
    ((0b01#2 = 0b01#2 ∨ 0b01#2 = 0b10#2) ∧ (capped v1 25 1 0).phase = 0b00#2 ∧
      capacitiesCover (if 0b01#2 = 0b01#2 then 0#1 else 1#1) (capped v1 25 1 0) = true) ∧
    ((0b10#2 = 0b01#2 ∨ 0b10#2 = 0b10#2) ∧ (capped v1 25 0 3).phase = 0b00#2 ∧
      capacitiesCover (if 0b10#2 = 0b01#2 then 0#1 else 1#1) (capped v1 25 0 3) = true) := by decide

/-- `StartBeyondTheMemoriesIsRefused`: one element short. -/
theorem witness_start_beyond :
    ((capped v1 25 0 3).phase = 0b00#2 ∧ capacitiesCover 0#1 (capped v1 25 0 3) = false) ∧
    ((capped v1 25 1 2).phase = 0b00#2 ∧ capacitiesCover 1#1 (capped v1 25 1 2) = false) ∧
    capacitiesCover 0#1 (capped v1 24 1 3) = false := by decide

/-- `RegisterWrites`, `RegisterReads`: the first number that is no register. -/
theorem witness_no_register : 6 ≤ 6 := by decide

/-- `WaitPollsStatus`, `HostMovesWhileBusy`. -/
theorem witness_wait : v1.phase = 0b00#2 ∧ (engine v1 0b10 0 25).phase ≠ 0b00#2 := by decide

/-- `FillPixelsReplacesItsElements`: the last element a memory of 24 has. -/
theorem witness_fill_pixels : (capped v1 24 1 3).phase = 0b00#2 ∧
    ∀ j v, formValue (.range 0 23 white) j = some v → capCovers (capped v1 24 1 3).par.capPix (j + 1) = true := by
  refine ⟨by decide, fun j v h => ?_⟩
  simp only [formValue] at h
  split at h
  · rename_i hj
    simp only [capped, capCovers, decide_eq_true_eq]; omega
  · cases h

/-- `FillBytesReplacesItsElements`: a list into PAY, one byte into TXT, each up to the last element. -/
theorem witness_fill_bytes : (capped v1 24 2 3).phase = 0b00#2 ∧
    (∀ j v, formValue (.list 0 [(0x48 : Byte), 0x69]) j = some v → capCovers (capped v1 24 2 3).par.capPay (j + 1) = true) ∧
    (∀ j v, formValue (.one 2 (0x41 : Byte)) j = some v → capCovers (capped v1 24 2 3).par.capTxt (j + 1) = true) := by
  refine ⟨by decide, fun j v h => ?_, fun j v h => ?_⟩
  · have hj : j < 2 := by
      rcases Nat.lt_or_ge j 2 with h1 | h1
      · exact h1
      · simp only [formValue, Nat.zero_le, if_true, Nat.sub_zero] at h
        rw [List.getElem?_eq_none (by simpa using h1)] at h; cases h
    simp only [capped, capCovers, decide_eq_true_eq]; omega
  · simp only [formValue] at h
    split at h
    · rename_i hj; subst hj; decide
    · cases h

/-- `DrainReturnsTheElements`: the last two pixels of a memory of 25, and a TXT byte below OUT_LEN beside a stale one. -/
theorem witness_drain :
    ((capped v1 25 1 3).phase = 0b00#2 ∧ [white, white].length = (drainSpan (.range 23 24)).2 ∧
      ∀ (k : Nat) (p : Pixel), [white, white][k]? = some p →
        memGet (pixelMem .pixin (capped v1 25 1 3)) ((drainSpan (.range 23 24)).1 + k) = some p ∧
        capCovers (capped v1 25 1 3).par.capPix ((drainSpan (.range 23 24)).1 + k + 1) = true) ∧
    (let s := { v1 with txt := [(0, 0x41), (1, 0xFF)], stale := [1] };
      s.phase = 0b00#2 ∧ [(0x41 : Byte)].length = (drainSpan (.one 0)).2 ∧
      ∀ (k : Nat) (b : Byte), [(0x41 : Byte)][k]? = some b →
        memGet (byteMem .txt s) ((drainSpan (.one 0)).1 + k) = some b ∧
        capCovers (byteCap .txt s.par) ((drainSpan (.one 0)).1 + k + 1) = true ∧
        (ByteSpace.txt = .txt → (drainSpan (.one 0)).1 + k ∉ s.stale)) := by
  refine ⟨⟨by decide, by decide, fun k p h => ?_⟩, by decide, by decide, fun k b h => ?_⟩
  · rcases k with _ | _ | k
    · cases h; decide
    · cases h; decide
    · simp at h
  · rcases k with _ | k
    · cases h; decide
    · simp at h

/-- `OpenValuesAreFreeAndNothingStops`: an unwritten pixel, an unwritten byte, a stale byte, a bit past the frame. -/
theorem witness_open_values :
    v1.phase = 0b00#2 ∧ (memGet (pixelMem .pixout v1) 0 = none ∧ capCovers v1.par.capPix 1 = true) ∧
    (memGet (byteMem .pay v1) 1 = none ∧ capCovers (byteCap .pay v1.par) 2 = true) ∧
    (let s := { v1 with txt := [(1, 0xFF)], stale := [1] };
      s.phase = 0b00#2 ∧ (ByteSpace.txt = .txt ∧ 1 ∈ s.stale) ∧ capCovers (byteCap .txt s.par) 2 = true) ∧
    (let s := { v1 with nbits := 24 };
      s.phase = 0b00#2 ∧ s.nbits ≤ 24) := by decide

/-- `PositionsAreRowMajor`: the last position of V3's 5 × 5. -/
theorem witness_positions : 24 < 5 * 5 := by decide

/-- `NextAdvancesByOnePosition`: the last column. -/
theorem witness_next : let s := engine v1 0b10 0 24;
    s.idx < s.npix ∧ 1 ≤ s.wL ∧ s.idx = s.y * s.wL + s.x ∧ ∃ t, exec .next s = .next t ∧ t.idx = 25 :=
  ⟨by decide, by decide, by decide, next_of_get (f := State.idx) (by decide)⟩

/-- `MuxselSelectsByRange`: both ends of each range, n = 1. -/
theorem witness_muxsel : (0 < 8 * 1 ∧ 7 < 8 * 1) ∧ (8 * 1 ≤ 8 ∧ 8 < 8 * 1 + 16) ∧ (8 * 1 ≤ 23 ∧ 23 < 8 * 1 + 16) ∧ 8 * 1 + 16 ≤ 24 := by
  decide

/-- `FrameLaysOutPayloadThenSentinel`, `WritebitReplacesRedBitZero`. -/
theorem witness_frame : [(0x48 : Byte), 0x69][1]? = some 0x69 ∧ 7 < 8 ∧ 14 < 15 ∧ 1 ≤ 1 := by decide

/-- `FramebitIsTheBitOfTheFrame`: the last payload bit, the first and the last sentinel bit. -/
theorem witness_framebit : let s := capped (engine (loaded 8 5 [] [0x48, 0x69]) 0b10 0 0) 40 2 5;
    s.lenL = [(0x48 : Byte), 0x69].length ∧ s.nbits = 8 * s.lenL + 16 ∧ Holds s.pay [0x48, 0x69] ∧
    capCovers s.par.capPay s.lenL = true ∧ 15 < s.nbits ∧ 16 < s.nbits ∧ 31 < s.nbits :=
  ⟨by decide, by decide, holds_of_check (by decide), by decide, by decide, by decide, by decide⟩

/-- `UnframeStopsAtTheFirstSentinelPair`: two pairs, the first at k = 2; and none. -/
theorem witness_unframe :
    (let bits := [(0x41 : Byte), 0xFF, 0xFE, 0xFF, 0xFE].flatMap byteBits;
      1 ≤ 2 ∧ 2 < bits.length / 8 ∧ groupAt bits (2 - 1) = 0xFF#8 ∧ groupAt bits 2 = 0xFE#8 ∧
      ∀ j, 1 ≤ j → j < 2 → ¬(groupAt bits (j - 1) = 0xFF#8 ∧ groupAt bits j = 0xFE#8)) ∧
    (let bits := [(0xFE : Byte), 0xFF].flatMap byteBits;
      ∀ k, 1 ≤ k → k < bits.length / 8 → ¬(groupAt bits (k - 1) = 0xFF#8 ∧ groupAt bits k = 0xFE#8)) := by
  refine ⟨⟨by decide, by decide, by decide, by decide, fun j h1 h2 => ?_⟩, fun k h1 h2 => ?_⟩
  · have : j = 1 := by omega
    subst this; decide
  · have h3 : k < 2 := h2
    have : k = 1 := by omega
    subst this; decide

/-- `UnframeIgnoresWhatFormsNoGroup`: 15 bits; 7 loose bits after whole groups; bits after a match. -/
theorem witness_unframe_short : (List.replicate 15 true).length < 16 ∧
    (([(0x41 : Byte), 0xFF].flatMap byteBits).length % 8 = 0 ∧ (List.replicate 7 true).length < 8) ∧
    unframe ([(0xFF : Byte), 0xFE].flatMap byteBits) = some [] := by decide

/-- `FramingRoundTrip`: a payload ending in 0xFF, and one that holds the pair at index 1. -/
theorem witness_round_trip : NoCollision [0x41, 0xFF] ∧ FirstCollision [0x41, 0xFF, 0xFE, 0x42] 1 :=
  ⟨noCollision_tail, firstCollision_one⟩

/-- `EncodeEmbedsTheFrame`: V1, at exactly the capacities; indices 23 (last frame bit) and 24 (PASS). -/
theorem witness_encode : let s := capped v1 25 1 0;
    s.phase = 0b00#2 ∧ capacitiesCover 0#1 s = true ∧ s.len = [(0x41 : Byte)].length ∧ Holds s.pay [0x41] ∧
    (List.replicate 25 white).length = s.width * s.height ∧ Holds s.pixin (List.replicate 25 white) ∧
    [(0x41 : Byte)] ≠ [] ∧ s.width ≠ 0 ∧ s.height ≠ 0 ∧ 8 * s.len + 16 ≤ s.width * s.height ∧
    (List.replicate 25 white)[23]? = some white ∧ 23 < 8 * s.len + 16 ∧ (List.replicate 25 white)[24]? = some white ∧
    8 * s.len + 16 ≤ 24 ∧ s.width * s.height ≤ 25 :=
  ⟨by decide, by decide, by decide, holds_of_check (by decide), by decide, holds_of_check (by decide), by decide, by decide, by decide,
    by decide, by decide, by decide, by decide, by decide, by decide⟩

/-- `EncodeReportsExactlyOneOutcome`: rows of V13, at the boundary. -/
theorem witness_encode_outcomes :
    (let s := loaded 0 7 [] [0x41]; s.phase = 0b00#2 ∧ capacitiesCover 0#1 s = true ∧ (s.len = 0 ∨ s.width = 0 ∨ s.height = 0)) ∧
    (let s := loaded 23 1 [] [0x41];
      s.phase = 0b00#2 ∧ capacitiesCover 0#1 s = true ∧ s.len ≠ 0 ∧ s.width ≠ 0 ∧ s.height ≠ 0 ∧ s.width * s.height < 8 * s.len + 16) ∧
    (let s := loaded 6 4 [] [0x41];
      s.phase = 0b00#2 ∧ capacitiesCover 0#1 s = true ∧ s.len ≠ 0 ∧ s.width ≠ 0 ∧ s.height ≠ 0 ∧
        8 * s.len + 16 ≤ s.width * s.height) := by decide

/-- `EncCheckValidates`. -/
theorem witness_enc_check : (engine v1 0b01 0 0).phase = 0b01#2 ∧ (engine v1 0b01 0 0).mode = 0#1 := by decide

/-- `EncStepWritesOnePixel`: PASS at index 24, the last payload bit at 7, the first sentinel bit at 8. -/
theorem witness_enc_step :
    (let s := capped (engine v1 0b10 0 24) 25 1 0;
      s.phase = 0b10#2 ∧ s.mode = 0#1 ∧ s.idx < s.npix ∧ memGet s.pixin s.idx = some white ∧
        capCovers s.par.capPix (s.idx + 1) = true ∧ s.nbits ≤ s.idx) ∧
    (let s := capped (engine v1 0b10 0 7) 25 1 0;
      s.phase = 0b10#2 ∧ s.mode = 0#1 ∧ s.idx < s.npix ∧ memGet s.pixin s.idx = some white ∧
        capCovers s.par.capPix (s.idx + 1) = true ∧ s.idx < s.nbits ∧ s.idx < 8 * s.lenL ∧
        capCovers s.par.capPay (s.idx / 8 + 1) = true ∧ memGet s.pay (s.idx / 8) = some 0x41) ∧
    (let s := engine v1 0b10 0 8;
      s.phase = 0b10#2 ∧ s.mode = 0#1 ∧ s.idx < s.npix ∧ memGet s.pixin s.idx = some white ∧
        capCovers s.par.capPix (s.idx + 1) = true ∧ s.idx < s.nbits ∧ 8 * s.lenL ≤ s.idx) := by decide

/-- `EncStepEndCompletes`, `DecStepEndRaisesNotFound`. -/
theorem witness_end_arms :
    (let s := engine v1 0b10 0 25; s.phase = 0b10#2 ∧ s.mode = 0#1 ∧ s.idx = s.npix) ∧
    (let s := p5 25 1 0xFE; s.phase = 0b10#2 ∧ s.mode = 1#1 ∧ s.idx = s.npix) := by decide

/-- `DecodeRecoversTheUnframedText`: V2 has a text, a black grid of V16 has none. -/
theorem witness_decode :
    (let g := v2Bits.map fun b => px (if b then 255 else 254) 255 255;
      v2.phase = 0b00#2 ∧ capacitiesCover 1#1 (capped v2 25 0 3) = true ∧ capacitiesCover 1#1 v2 = true ∧
        g.length = v2.width * v2.height ∧ Holds v2.pixin g ∧ unframe (g.map readBit) = some [0x41]) ∧
    (let g := List.replicate 25 (px 0 0 0); let s := loaded 5 5 g [];
      s.phase = 0b00#2 ∧ capacitiesCover 1#1 s = true ∧ g.length = s.width * s.height ∧ Holds s.pixin g ∧
        unframe (g.map readBit) = none) :=
  ⟨⟨by decide, by decide, by decide, by decide, holds_of_check (by decide), by decide⟩,
    by decide, by decide, by decide, holds_of_check (by decide), by decide⟩

/-- `DecodeOfSmallGridIsNotFound`: 15 pixels that nothing has written. -/
theorem witness_small_grid : let s := loaded 3 5 [] [];
    s.phase = 0b00#2 ∧ capacitiesCover 1#1 s = true ∧ s.width * s.height < 16 := by decide

/-- `DecodedTextFitsTheGrid`: V2, whose text is the longest 25 pixels can hold. -/
theorem witness_decoded_text : v2.phase = 0b00#2 ∧ ∃ u, exec .decode v2 = .next u ∧ (statusWord u, u.outLen) = (0b0010#4, 1) :=
  ⟨by decide, next_of_get (f := fun u => (statusWord u, u.outLen)) (by decide)⟩

/-- `DecodeDependsOnlyOnRedLowBits`: two grids of 16 pixels that differ everywhere but in the red low bit. -/
theorem witness_red_low_bits :
    let g := List.replicate 15 (px 1 0 0) ++ [px 0 0 0];
    let g' := List.replicate 15 (px 255 7 9) ++ [px 254 7 9];
    let s := loaded 4 4 g [];
    s.phase = 0b00#2 ∧ capacitiesCover 1#1 s = true ∧ g.length = s.width * s.height ∧ Holds s.pixin g ∧
      Holds (placeFrom 0 g') g' ∧ g.map readBit = g'.map readBit :=
  ⟨by decide, by decide, by decide, holds_of_check (by decide), holds_of_check (by decide), by decide⟩

/-- `DecCheckValidatesNothing`. -/
theorem witness_dec_check : (engine v2 0b01 1 0).phase = 0b01#2 ∧ (engine v2 0b01 1 0).mode = 1#1 := by decide

/-- `DecStepShiftsOneBitIn`: the seventh bit of a group (P5, step 8). -/
theorem witness_dec_shift : let s := capped (p5 6 0x10 0) 25 0 3;
    s.phase = 0b10#2 ∧ s.mode = 1#1 ∧ s.idx < s.npix ∧ memGet s.pixin s.idx = some (px 254 255 255) ∧
      capCovers s.par.capPix (s.idx + 1) = true ∧ s.bitcnt ≠ 7#3 := by decide

/-- `DecStepCompletesAGroup`: the match of P5's step 25, and step 9 with no group before it. -/
theorem witness_dec_group :
    (let s := capped (p5 23 0x7F 0xFF) 25 0 3;
      s.phase = 0b10#2 ∧ s.mode = 1#1 ∧ s.idx < s.npix ∧ memGet s.pixin s.idx = some (px 254 255 255) ∧
        capCovers s.par.capPix (s.idx + 1) = true ∧ s.bitcnt = 7#3 ∧ capCovers s.par.capTxt (s.ngrp + 1) = true ∧
        0xFE#8 = (s.shreg <<< 1) ||| (if readBit (px 254 255 255) then 1#8 else 0#8) ∧ (1 ≤ s.ngrp ∧ s.prev = 0xFF#8)) ∧
    (let s := capped (p5 7 0x20 0) 25 0 3;
      s.phase = 0b10#2 ∧ s.mode = 1#1 ∧ s.idx < s.npix ∧ memGet s.pixin s.idx = some white ∧
        capCovers s.par.capPix (s.idx + 1) = true ∧ s.bitcnt = 7#3 ∧ capCovers s.par.capTxt (s.ngrp + 1) = true ∧
        0x41#8 = (s.shreg <<< 1) ||| (if readBit white then 1#8 else 0#8) ∧ ¬1 ≤ s.ngrp) := by decide

/-- V19's block: a 8 × 6 grid, the payload that holds the pair; and one of the same length that does not. -/
def v19 (pay : List Byte) : State := loaded 8 6 (List.replicate 48 (px 0x80 1 2)) pay

/-- `DecodeOfEncodeReturnsThePayload`, for a payload with no collision and for V19's. -/
theorem witness_decode_of_encode (t : List Byte) (ht : t = [0x41, 0xFF, 0x42, 0xFF] ∨ t = [0x41, 0xFF, 0xFE, 0x42]) :
    ∃ u s', (v19 t).phase = 0b00#2 ∧ (v19 t).len = t.length ∧ Holds (v19 t).pay t ∧ exec .encode (v19 t) = .next u ∧
      statusWord u = 0b0010#4 ∧ s'.phase = 0b00#2 ∧ s'.width = (v19 t).width ∧ s'.height = (v19 t).height ∧
      capacitiesCover 1#1 s' = true ∧ ∀ i < (v19 t).width * (v19 t).height, memGet s'.pixin i = memGet u.pixout i := by
  obtain ⟨u, hu, hs⟩ := next_of_get (o := exec .encode (v19 t)) (f := statusWord) (a := 0b0010) (by
    rcases ht with rfl | rfl <;> decide)
  refine ⟨u, { v19 t with pixin := u.pixout }, rfl, rfl, ?_, hu, hs, rfl, rfl, rfl, rfl, fun i _ => rfl⟩
  rcases ht with rfl | rfl <;> exact holds_of_check (by decide)

/-- The payloads of `witness_decode_of_encode`. -/
theorem witness_payloads : NoCollision [0x41, 0xFF, 0x42, 0xFF] ∧ FirstCollision [0x41, 0xFF, 0xFE, 0x42] 1 := by
  refine ⟨fun i => ?_, firstCollision_one⟩
  rcases i with _ | _ | _ | _ | i <;> simp

/-- `StepsOutsideTheirConditionAreNotTaken`: an idle block; the arms at each other's boundary. -/
theorem witness_not_enabled :
    ¬(v1.phase = 0b01#2 ∧ v1.mode = 0#1) ∧ ¬(v1.phase = 0b01#2 ∧ v1.mode = 1#1) ∧
    (let s := engine v1 0b10 0 25; ¬(s.phase = 0b10#2 ∧ s.mode = 0#1 ∧ s.idx < s.npix) ∧ s.npix ≤ s.idx) ∧
    (let s := engine v1 0b10 0 24; ¬(s.phase = 0b10#2 ∧ s.mode = 0#1 ∧ s.idx = s.npix)) ∧
    (let s := engine v1 0b10 1 25; ¬(s.phase = 0b10#2 ∧ s.mode = 1#1 ∧ s.idx < s.npix)) ∧
    (let s := engine v1 0b10 1 24; ¬(s.phase = 0b10#2 ∧ s.mode = 1#1 ∧ s.idx = s.npix)) := by decide

/-- `OnlyFillChangesTheInputMemories`, `OutputMemoriesHaveOneWriterEach`: DECODE writes TXT and is no FILL. -/
theorem witness_decode_answers : (∃ t, exec .decode v2 = .next t ∧ t.outLen = 1) ∧ (∀ f, Instr.decode ≠ .fill f) ∧
    Instr.decode ≠ .encode ∧ Instr.decode ≠ .encStepPixel :=
  ⟨next_of_get (f := State.outLen) (by decide), fun f => by simp, by decide, by decide⟩

/-- `OutputMemoriesHaveOneWriterEach`, its second clause: ENCODE writes PIXOUT and is neither DECODE nor its pixel step. -/
theorem witness_encode_answers : (∃ t, exec .encode v1 = .next t ∧ statusWord t = 0b0010) ∧ (∀ f, Instr.encode ≠ .fill f) ∧
    Instr.encode ≠ .decode ∧ Instr.encode ≠ .decStepPixel :=
  ⟨next_of_get (f := statusWord) (by decide), fun f => by simp, by decide, by decide⟩

/-- `FlagsAreWrittenOnlyByStartAndCompletion`: an ENCODE pixel step. -/
theorem witness_flags : (∃ t, exec .encStepPixel (engine v1 0b10 0 0) = .next t ∧ t.idx = 1) ∧
    Instr.encStepPixel ≠ .encode ∧ Instr.encStepPixel ≠ .decode ∧ (∀ op, Instr.encStepPixel ≠ .start op) ∧
    (∀ v, Instr.encStepPixel ≠ .wr 0 v) ∧ Instr.encStepPixel ≠ .encCheck ∧ Instr.encStepPixel ≠ .decCheck ∧
    Instr.encStepPixel ≠ .encStepEnd ∧ Instr.encStepPixel ≠ .decStepPixel ∧ Instr.encStepPixel ≠ .decStepEnd :=
  ⟨next_of_get (f := State.idx) (by decide), by decide, by decide, fun op => by simp, fun v => by simp, by decide, by decide,
    by decide, by decide, by decide⟩

/-- The same, its first clause: a START that is not ignored, and a step that completes. -/
theorem witness_flags_written : (∃ t, exec (.start 0b01) v1 = .next t ∧ statusWord t = 0b0001) ∧
    ∃ t, exec .encStepEnd (engine v1 0b10 0 25) = .next t ∧ statusWord t = 0b0010 :=
  ⟨next_of_get (f := statusWord) (by decide), next_of_get (f := statusWord) (by decide)⟩

/-- `LatchedOperandsAreConstantWhileBusy`: V23's write of WIDTH while busy. -/
theorem witness_latched : (engine v1 0b10 0 3).phase ≠ 0b00#2 ∧
    ∃ t, exec (.wr 2 1) (engine v1 0b10 0 3) = .next t ∧ (t.width, decide (t.phase ≠ 0b00#2)) = (1, true) :=
  ⟨by decide, next_of_get (f := fun t => (t.width, decide (t.phase ≠ 0b00#2))) (by decide)⟩

/-- `StartLeavesNothingOfThePast`: two idle states that differ in every working register, STATUS and OUT_LEN. -/
theorem witness_start_past : let s := v1;
    let t := { v1 with
      outLen := 9, done := 1, err := 0b11, mode := 1, wL := 7, hL := 7, lenL := 7, npix := 7, nbits := 7, idx := 7, x := 7, y := 7
      shreg := 7, bitcnt := 7, prev := 7, ngrp := 7 };
    s.phase = 0b00#2 ∧ t.phase = 0b00#2 ∧ (0b10#2 = 0b01#2 ∨ 0b10#2 = 0b10#2) ∧ t.par = s.par ∧ t.width = s.width ∧
      t.height = s.height ∧ t.len = s.len ∧ t.pixin = s.pixin ∧ t.pixout = s.pixout ∧ t.pay = s.pay ∧ t.txt = s.txt ∧
      t.moves = s.moves ∧ t.answer = s.answer ∧ t.draws = s.draws ∧ t.stale = s.stale ∧ t ≠ s := by decide

/-- `EveryRunStepAdvancesTheIndexOrCompletes`: a step that advances and the match of P5, which completes. -/
theorem witness_run_step :
    (let s := engine v1 0b10 0 24;
      s.phase = 0b10#2 ∧ fetchEngine s = .ok .encStepPixel ∧ ∃ t, exec .encStepPixel s = .next t ∧ t.idx = 25) ∧
    (let s := p5 23 0x7F 0xFF;
      s.phase = 0b10#2 ∧ fetchEngine s = .ok .decStepPixel ∧ ∃ t, exec .decStepPixel s = .next t ∧ t.phase = 0b00) :=
  ⟨⟨by decide, by decide, next_of_get (f := State.idx) (by decide)⟩, by decide, by decide,
    next_of_get (f := State.phase) (by decide)⟩

/-- What the invariant asks of a state whose widths, memories and STATUS are in order, in a form that evaluates. -/
theorem inv_of_checks {s : State} (params : s.par.Ok)
    (widths : s.width < 2 ^ s.par.dimw ∧ s.height < 2 ^ s.par.dimw ∧ s.len < 2 ^ s.par.lenw ∧ s.outLen < 2 ^ s.par.lenw ∧
      s.wL < 2 ^ s.par.dimw ∧ s.hL < 2 ^ s.par.dimw ∧ s.lenL < 2 ^ s.par.lenw ∧ s.npix < 2 ^ s.par.idxw ∧
      s.nbits < 2 ^ (s.par.lenw + 4) ∧ s.idx < 2 ^ s.par.idxw ∧ s.x < 2 ^ s.par.dimw ∧ s.y < 2 ^ s.par.dimw ∧ s.ngrp < 2 ^ s.par.lenw)
    (memories : Memory.wf s.pixin ∧ Memory.wf s.pixout ∧ Memory.wf s.pay ∧ Memory.wf s.txt)
    (fit : (∀ e ∈ s.pixin, e.2.Fits s.par) ∧ (∀ e ∈ s.pixout, e.2.Fits s.par))
    (control : s.phase ≠ 0b11#2 ∧ StatusLegal s)
    (busy : s.phase ≠ 0b00#2 → (s.npix = s.wL * s.hL ∧ s.nbits = 8 * s.lenL + 16 ∧ s.outLen = 0) ∧
      capCovers s.par.capPix s.npix = true ∧ (s.mode = 0#1 → capCovers s.par.capPay s.lenL = true) ∧
      (s.mode = 1#1 → capCovers s.par.capTxt (s.npix / 8) = true))
    (fresh : s.phase = 0b01#2 → s.idx = 0 ∧ s.x = 0 ∧ s.y = 0 ∧ s.shreg = 0#8 ∧ s.bitcnt = 0#3 ∧ s.prev = 0#8 ∧ s.ngrp = 0)
    (pass : s.phase = 0b10#2 → s.idx ≤ s.npix ∧ s.idx = elementIndex s.wL s.x s.y ∧
      (s.idx < s.npix → s.x < s.wL ∧ s.y < s.hL) ∧ (s.idx = s.npix → s.wL ≠ 0 → s.x = 0 ∧ s.y = s.hL))
    (enc : s.phase = 0b10#2 → s.mode = 0#1 → s.lenL ≠ 0 ∧ s.wL ≠ 0 ∧ s.hL ≠ 0 ∧ s.nbits ≤ s.npix)
    (dec : s.phase = 0b10#2 → s.mode = 1#1 → s.bitcnt.toNat = s.idx % 8 ∧ s.ngrp = s.idx / 8 ∧ s.shreg.toNat < 2 ^ (s.idx % 8)) :
    Inv s := by
  obtain ⟨w1, w2, w3, w4, w5, w6, w7, w8, w9, w10, w11, w12, w13⟩ := widths
  exact
    { params, widths := ⟨w1, w2, w3, w4, w5, w6, w7, w8, w9, w10, w11, w12, w13⟩
      canonical := ⟨memories.1, memories.2.1, memories.2.2.1, memories.2.2.2⟩
      pixinFit := fit.1, pixoutFit := fit.2, phase := control.1, status := control.2
      latched := fun h => ⟨(busy h).1.1, (busy h).1.2.1, (busy h).1.2.2⟩
      capacities := fun h => ⟨(busy h).2.1, (busy h).2.2.1, (busy h).2.2.2⟩
      fresh := fun h => ⟨(fresh h).1, (fresh h).2.1, (fresh h).2.2.1, (fresh h).2.2.2.1, (fresh h).2.2.2.2.1, (fresh h).2.2.2.2.2.1,
        (fresh h).2.2.2.2.2.2⟩
      pass := fun h => ⟨(pass h).1, (pass h).2.1, (pass h).2.2.1, (pass h).2.2.2⟩
      validated := fun h h1 => ⟨(enc h h1).1, (enc h h1).2.1, (enc h h1).2.2.1, (enc h h1).2.2.2⟩
      progress := fun h h1 => ⟨(dec h h1).1, (dec h h1).2.1, (dec h h1).2.2⟩ }

/-- `BusyEngineIsNeverStuck`, `StartedCommandCompletes`, `StepKeepsTheInvariant`: ENCODE in CHECK. -/
theorem witness_inv_enc_check : let s := engine v1 0b01 0 0;
    Inv s ∧ s.phase = 0b01#2 ∧ s.phase ≠ 0b00#2 ∧ s.moves = [] ∧ ∃ t, step s = .next t ∧ t.phase = 0b10 :=
  ⟨inv_of_checks (by decide) (by decide) (by decide) (by decide) (by decide) (by decide) (by decide) (by decide) (by decide) (by decide),
    by decide, by decide, by decide, next_of_get (f := State.phase) (by decide)⟩

/-- The same, DECODE in CHECK at exactly the capacities, with the engine's turn scheduled. -/
theorem witness_inv_dec_check : let s := { capped (engine v2 0b01 1 0) 25 0 3 with moves := [.engine] };
    Inv s ∧ s.phase ≠ 0b00#2 ∧ s.moves = .engine :: [] ∧ ∃ t, step s = .next t ∧ t.phase = 0b10 :=
  ⟨inv_of_checks (by decide) (by decide) (by decide) (by decide) (by decide) (by decide) (by decide) (by decide) (by decide) (by decide),
    by decide, by decide, next_of_get (f := State.phase) (by decide)⟩

/-- `StepKeepsTheInvariant`, `BusyEngineIsNeverStuck`: ENCODE before its last pixel. -/
theorem witness_inv_enc_run : let s := engine v1 0b10 0 24;
    Inv s ∧ s.phase ≠ 0b00#2 ∧ s.moves = [] ∧ ∃ t, step s = .next t ∧ t.idx = 25 :=
  ⟨inv_of_checks (by decide) (by decide) (by decide) (by decide) (by decide) (by decide) (by decide) (by decide) (by decide) (by decide),
    by decide, by decide, next_of_get (f := State.idx) (by decide)⟩

/-- The same, DECODE before the bit that completes the marker (P5, step 25). -/
theorem witness_inv_dec_run : let s := p5 23 0x7F 0xFF;
    Inv s ∧ s.phase ≠ 0b00#2 ∧ s.moves = [] ∧ ∃ t, step s = .next t ∧ t.phase = 0b00 :=
  ⟨inv_of_checks (by decide) (by decide) (by decide) (by decide) (by decide) (by decide) (by decide) (by decide) (by decide) (by decide),
    by decide, by decide, next_of_get (f := State.phase) (by decide)⟩

/-- `EncodeStepsAgreeWithTheCommand`, `DecodeStepsAgreeWithTheCommand`. -/
theorem witness_agree : (v1.phase = 0b00#2 ∧ v1.moves = [] ∧ capacitiesCover 0#1 v1 = true) ∧
    (v2.phase = 0b00#2 ∧ v2.moves = [] ∧ capacitiesCover 1#1 v2 = true) := by decide

/-- `EncodeCallReturnsTheGridOrTheError`: V1's operands at exactly the capacities, a move behind the call; and for the two errors
V13's 0 × 7 and 23 × 1. -/
theorem witness_encode_call :
    (let s := { capped State.reset 25 1 0 with moves := encodeCall (List.replicate 25 white) 5 5 [0x41] ++ [Move.engine] };
      s.phase = 0b00#2 ∧ s.moves = encodeCall (List.replicate 25 white) 5 5 [0x41] ++ [Move.engine] ∧ 5 < 2 ^ s.par.dimw ∧
        [0x41].length < 2 ^ s.par.lenw ∧ (List.replicate 25 white).length = 5 * 5 ∧ (∀ p ∈ List.replicate 25 white, p.Fits s.par) ∧
        capCovers s.par.capPix (5 * 5) = true ∧ capCovers s.par.capPay [0x41].length = true ∧ [0x41].length ≠ 0 ∧
        8 * [0x41].length + 16 ≤ 5 * 5) ∧
    (let s := { State.reset with moves := encodeCall [] 0 7 [0x41] ++ [] };
      s.phase = 0b00#2 ∧ 0 < 2 ^ s.par.dimw ∧ 7 < 2 ^ s.par.dimw ∧ ([] : List Pixel).length = 0 * 7) ∧
    (let s := { State.reset with moves := encodeCall (List.replicate 23 white) 23 1 [0x41] ++ [] };
      s.phase = 0b00#2 ∧ 23 < 2 ^ s.par.dimw ∧ (List.replicate 23 white).length = 23 * 1 ∧
        (∀ p ∈ List.replicate 23 white, p.Fits s.par) ∧ 23 * 1 < 8 * [0x41].length + 16) := by decide

/-- `DecodeCallReturnsTheTextOrNotFound`: V16's 4 × 4 grid that holds the empty text, at exactly the capacities, and its 3 × 5 grid. -/
theorem witness_decode_call :
    (let g := List.replicate 15 (px 1 0 0) ++ [px 0 0 0];
     let s := { capped State.reset 16 0 2 with moves := decodeCall g 4 4 ++ [] };
      s.phase = 0b00#2 ∧ s.moves = decodeCall g 4 4 ++ [] ∧ 4 < 2 ^ s.par.dimw ∧ g.length = 4 * 4 ∧ (∀ p ∈ g, p.Fits s.par) ∧
        capCovers s.par.capPix (4 * 4) = true ∧ capCovers s.par.capTxt (4 * 4 / 8) = true ∧ unframe (g.map readBit) = some []) ∧
    (let g := List.replicate 15 (px 1 0 0);
     let s := { State.reset with moves := decodeCall g 3 5 ++ [] };
      s.phase = 0b00#2 ∧ 5 < 2 ^ s.par.dimw ∧ g.length = 3 * 5 ∧ (∀ p ∈ g, p.Fits s.par) ∧ unframe (g.map readBit) = none) := by
  decide

/-- `StepKeepsMemoriesCanonical`: a FILL between two listed elements. -/
theorem witness_canonical :
    let s := { State.reset with pay := [(0, 1), (2, 3)], moves := [.host (.fill (.bytes .pay (.one 1 2)))] };
    MemoriesCanonical s ∧ ∃ t, step s = .next t ∧ t.pay = [(0, 1), (1, 2), (2, 3)] :=
  ⟨⟨by decide, by decide, by decide, by decide⟩, next_of_get (f := State.pay) (by decide)⟩

/-- `StatusIsAlwaysOneOfSixWords`: a command that ends in CapacityExceeded. -/
theorem witness_status : let s := engine (loaded 23 1 [] [0x41]) 0b01 0 0;
    StatusLegal s ∧ ∃ t, step s = .next t ∧ statusWord t = 0b1010 :=
  ⟨by decide, next_of_get (f := statusWord) (by decide)⟩

end Sys2Proof.Tests
end

section
/-! SUPPORT. What the operations of `exec` can do to the registers that control a command: the command registers, how a command
starts, goes from CHECK to RUN, and ends (spec/10_state.md R28 to R33). -/

namespace Sys2Proof.Machine

/-- The registers that say which command runs, on which operands, and how it ended: STATUS, OUT_LEN, MODE and the latched
operands (spec/10_state.md R23, R27 to R29). -/
structure Control where
  outLen : Nat
  done : BitVec 1
  err : BitVec 2
  phase : BitVec 2
  mode : BitVec 1
  wL : Nat
  hL : Nat
  lenL : Nat
  npix : Nat
  nbits : Nat

/-- The control registers of a state. -/
def State.control (s : State) : Control :=
  { outLen := s.outLen, done := s.done, err := s.err, phase := s.phase, mode := s.mode
    wL := s.wL, hL := s.hL, lenL := s.lenL, npix := s.npix, nbits := s.nbits }

/-- Two states agree on the control registers exactly when they agree on each. -/
theorem control_eq_iff {s t : State} : t.control = s.control ↔
    t.outLen = s.outLen ∧ t.done = s.done ∧ t.err = s.err ∧ t.phase = s.phase ∧ t.mode = s.mode ∧
      t.wL = s.wL ∧ t.hL = s.hL ∧ t.lenL = s.lenL ∧ t.npix = s.npix ∧ t.nbits = s.nbits := by
  simp [State.control]

/-- STATUS is a function of the control registers (R23). -/
theorem statusWord_eq_of_control {s t : State} (h : t.control = s.control) : statusWord t = statusWord s := by
  obtain ⟨-, hdone, herr, hphase, -⟩ := control_eq_iff.mp h
  simp only [statusWord, busyBit, hdone, herr, hphase]

/-- STATUS after a START that is not ignored (R203). -/
@[simp] theorem statusWord_latch (m : BitVec 1) (s : State) : statusWord (latch m s) = 0b0001#4 := by
  simp [statusWord, busyBit]

/-- Going from CHECK to RUN leaves BUSY at 1, and STATUS with it. -/
theorem statusWord_check_to_run {s : State} (h : s.phase = 0b01#2) :
    statusWord { s with phase := 0b10#2 } = statusWord s := by
  simp [statusWord, busyBit, h]

/-! ### Outcomes -/

/-- An operation that is refused where its condition fails, and answers a next state, has its condition. -/
theorem next_of_guarded {c : Prop} [Decidable c] {x : Host.Outcome State Fault Refusal} {r : Refusal} {t : State}
    (h : (if c then x else .refused r) = .next t) : c ∧ x = .next t := by
  split at h
  · exact ⟨‹_›, h⟩
  · cases h

/-- An operation's result answers a next state exactly when it is that state. -/
@[simp] theorem toOutcome_eq_next {r : Except Fault State} {t : State} : toOutcome r = .next t ↔ r = .ok t := by
  cases r <;> simp [toOutcome]

/-! ### The host's transactions -/

theorem fillPixels_frame {S : PixelSpace} {es : List (Nat × Pixel)} : ∀ {s t : State}, fillPixels S es s = .ok t →
    t = { s with pixin := t.pixin, pixout := t.pixout } := by
  induction es with
  | nil => intro s t h; cases h; rfl
  | cons e es ih =>
    intro s t h
    simp only [fillPixels] at h
    split at h
    · rename_i hw; rw [ih h, writePixel_ok hw]; cases S <;> rfl
    · cases h

/-- A host write of a byte changes its memory and a mark alone. -/
theorem hostWriteByte_frame {S : ByteSpace} {i : Nat} {b : Byte} {s t : State} (h : hostWriteByte S i b s = .ok t) :
    t = { s with pay := t.pay, txt := t.txt, stale := t.stale } := by
  cases S with
  | pay => rw [writeByte_ok h]; rfl
  | txt =>
    unfold hostWriteByte at h
    split at h
    · rename_i hw; cases h; rw [writeByte_ok hw]; rfl
    · rw [writeByte_ok h]; rfl

theorem fillBytes_frame {S : ByteSpace} {es : List (Nat × Byte)} : ∀ {s t : State}, fillBytes S es s = .ok t →
    t = { s with pay := t.pay, txt := t.txt, stale := t.stale } := by
  induction es with
  | nil => intro s t h; cases h; rfl
  | cons e es ih =>
    intro s t h
    simp only [fillBytes] at h
    split at h
    · rename_i hw; rw [ih h, hostWriteByte_frame hw]
    · cases h

/-- FILL, on an idle block only, writes the memories and the marks alone (spec/44_host_commands.md R206, R258). -/
theorem execFill_frame {f : FillOp} {s t : State} (h : execFill f s = .next t) : s.phase = 0b00#2 ∧
    t = { s with pixin := t.pixin, pixout := t.pixout, pay := t.pay, txt := t.txt, stale := t.stale } := by
  obtain ⟨hidle, hrun⟩ := next_of_guarded h
  rw [toOutcome_eq_next] at hrun
  refine ⟨hidle, ?_⟩
  cases f with
  | pixels S f => rw [fillPixels_frame hrun]
  | bytes S f => rw [fillBytes_frame hrun]

/-- DRAIN on an idle block writes the answer and the draw counter alone (R206). -/
theorem runDrain_frame {d : DrainOp} {s t : State} (h : runDrain d s = .ok t) :
    t = { s with answer := t.answer, draws := t.draws } := by
  cases d <;> simp only [runDrain] at h <;> split at h
  · rename_i hd; cases h; rw [drainPixels_frame hd]; rfl
  · cases h
  · rename_i hd; cases h; rw [drainBytes_frame hd]; rfl
  · cases h

/-- DRAIN, on an idle block only, writes the answer and the draw counter alone (R206, R258). -/
theorem execDrain_frame {d : DrainOp} {s t : State} (h : execDrain d s = .next t) : s.phase = 0b00#2 ∧
    t = { s with answer := t.answer, draws := t.draws } := by
  obtain ⟨hidle, hrun⟩ := next_of_guarded h
  exact ⟨hidle, runDrain_frame (toOutcome_eq_next.mp hrun)⟩

/-- WAIT writes the answer and the schedule alone (R204). -/
theorem execWait_frame {s t : State} (h : execWait s = .next t) : t = { s with answer := t.answer, moves := t.moves } := by
  simp only [execWait] at h
  split at h <;> (cases h; rfl)

/-- START is ignored or latches a command on an idle block (R203). -/
theorem startOp_cases {op : BitVec 2} {s t : State} (h : startOp op s = .next t) :
    t = s ∨ (s.phase = 0b00#2 ∧ ∃ m, capacitiesCover m s = true ∧ t = latch m s) := by
  have command {m : BitVec 1} (hm : startCommand m s = .next t) :
      t = s ∨ (s.phase = 0b00#2 ∧ ∃ m, capacitiesCover m s = true ∧ t = latch m s) := by
    rcases startCommand_cases m s with ⟨_, hr⟩ | ⟨hs, hc, hr⟩ | ⟨_, _, hr⟩ <;> rw [hr] at hm
    · cases hm; exact .inl rfl
    · cases hm; exact .inr ⟨hs, m, hc, rfl⟩
    · cases hm
  unfold startOp at h
  split at h
  · exact command h
  · split at h
    · exact command h
    · cases h; exact .inl rfl

/-- A register write starts a command on an idle block, and only at CMD, or writes WIDTH, HEIGHT and LEN alone (R201, R203). -/
theorem writeReg_cases {reg value : Nat} {s t : State} (h : writeReg reg value s = .next t) :
    t = { s with width := t.width, height := t.height, len := t.len } ∨
    (reg = 0 ∧ s.phase = 0b00#2 ∧ ∃ m, capacitiesCover m s = true ∧ t = latch m s) := by
  unfold writeReg at h
  split at h
  · rcases startOp_cases h with rfl | hstart
    · exact .inl rfl
    · exact .inr ⟨rfl, hstart⟩
  all_goals cases h; exact .inl rfl

/-! ### ENCODE and DECODE as whole commands -/

/-- ENCODE on latched operands ends the command with DONE set (spec/42_encoder.md R160). -/
theorem runEncode_completes {s t : State} (h : runEncode s = .ok t) : t.phase = 0b00#2 ∧ t.done = 1#1 := by
  unfold runEncode at h
  split at h
  · cases h; simp
  · split at h
    · cases h; simp
    · cases h

/-- DECODE on latched operands ends the command with DONE set (spec/43_decoder.md R180). -/
theorem runDecode_completes {s t : State} (h : runDecode s = .ok t) : t.phase = 0b00#2 ∧ t.done = 1#1 := by
  unfold runDecode at h
  split at h
  · cases h
  · split at h
    · cases h; simp
    · split at h
      · cases h
      · cases h; simp

/-- ENCODE is ignored while a command runs, or completes (R160, R203). -/
theorem execEncode_cases {s t : State} (h : execEncode s = .next t) :
    (s.phase ≠ 0b00#2 ∧ t = s) ∨ (t.phase = 0b00#2 ∧ t.done = 1#1) := by
  unfold execEncode at h
  split at h
  · cases h; exact .inl ⟨‹_›, rfl⟩
  · exact .inr (runEncode_completes (toOutcome_eq_next.mp (next_of_guarded h).2))

/-- DECODE is ignored while a command runs, or completes (R180, R203). -/
theorem execDecode_cases {s t : State} (h : execDecode s = .next t) :
    (s.phase ≠ 0b00#2 ∧ t = s) ∨ (t.phase = 0b00#2 ∧ t.done = 1#1) := by
  unfold execDecode at h
  split at h
  · cases h; exact .inl ⟨‹_›, rfl⟩
  · exact .inr (runDecode_completes (toOutcome_eq_next.mp (next_of_guarded h).2))

/-! ### The engine's steps -/

/-- ENC_CHECK raises the verdict's error or goes to RUN (R166). -/
theorem execEncCheck_cases {s t : State} (h : execEncCheck s = .next t) : s.phase = 0b01#2 ∧ s.mode = 0#1 ∧
    ((∃ e, encodeVerdict s = some e ∧ t = raiseError e s) ∨
      (encodeVerdict s = none ∧ t = { s with phase := 0b10#2 })) := by
  obtain ⟨⟨hphase, hmode⟩, ht⟩ := next_of_guarded h
  refine ⟨hphase, hmode, ?_⟩
  split at ht
  · cases ht; exact .inl ⟨_, ‹_›, rfl⟩
  · cases ht; exact .inr ⟨‹_›, rfl⟩

/-- DEC_CHECK goes to RUN (R186). -/
theorem execDecCheck_next {s t : State} (h : execDecCheck s = .next t) :
    s.phase = 0b01#2 ∧ s.mode = 1#1 ∧ t = { s with phase := 0b10#2 } := by
  obtain ⟨⟨hphase, hmode⟩, ht⟩ := next_of_guarded h
  cases ht; exact ⟨hphase, hmode, rfl⟩

/-- ENC_STEP's pixel arm embeds one pixel and takes NEXT (R167). -/
theorem execEncStepPixel_next {s t : State} (h : execEncStepPixel s = .next t) :
    s.phase = 0b10#2 ∧ s.mode = 0#1 ∧ s.idx < s.npix ∧ ∃ u, encodePixel s.idx s = .ok u ∧ t = advance u := by
  obtain ⟨⟨hphase, hmode, hidx⟩, ht⟩ := next_of_guarded h
  split at ht
  · cases ht; exact ⟨hphase, hmode, hidx, _, ‹_›, rfl⟩
  · cases ht

/-- ENC_STEP's end arm completes (R168). -/
theorem execEncStepEnd_next {s t : State} (h : execEncStepEnd s = .next t) :
    s.phase = 0b10#2 ∧ s.mode = 0#1 ∧ s.idx = s.npix ∧ t = completeOk s := by
  obtain ⟨⟨hphase, hmode, hidx⟩, ht⟩ := next_of_guarded h
  cases ht; exact ⟨hphase, hmode, hidx, rfl⟩

/-- GROUP_COMPLETE stores the group, then completes on a match or begins the next group (R188). -/
theorem groupComplete_cases {v : Byte} {s t : State} (h : groupComplete v s = .ok t) :
    (SentinelMatch s v ∧ t = withdrawText (s.ngrp - 1) (completeOk { setByte .txt s.ngrp v s with outLen := s.ngrp - 1 })) ∨
    (¬ SentinelMatch s v ∧
      t = { setByte .txt s.ngrp v s with prev := v, ngrp := s.ngrp + 1, shreg := 0#8, bitcnt := 0#3 }) := by
  unfold groupComplete at h
  split at h
  · cases h
  · rename_i hw
    rw [writeByte_ok hw] at h
    split at h
    · cases h; exact .inl ⟨‹_›, rfl⟩
    · cases h; exact .inr ⟨‹_›, rfl⟩

/-- DEC_STEP's pixel, before NEXT, completes the command or writes the data path, TXT and the draw counter alone (R187, R188). -/
theorem decodePixel_cases {s t : State} (h : decodePixel s = .ok t) : (t.phase = 0b00#2 ∧ t.done = 1#1) ∨
    t = { s with txt := t.txt, shreg := t.shreg, bitcnt := t.bitcnt, prev := t.prev, ngrp := t.ngrp, draws := t.draws } := by
  unfold decodePixel at h
  split at h
  · cases h
  · rename_i p s1 hr
    have hs1 := readPixel_frame hr
    split at h
    · rcases groupComplete_cases h with ⟨_, ht⟩ | ⟨_, ht⟩
      · exact .inl ⟨by rw [ht]; rfl, by rw [ht]; rfl⟩
      · exact .inr (by rw [ht, hs1]; rfl)
    · cases h; exact .inr (by rw [hs1])

/-- DEC_STEP's pixel arm completes the command, or takes NEXT with the command still running (R187, R188). -/
theorem execDecStepPixel_cases {s t : State} (h : execDecStepPixel s = .next t) :
    s.phase = 0b10#2 ∧ s.mode = 1#1 ∧ s.idx < s.npix ∧
    ((t.phase = 0b00#2 ∧ t.done = 1#1) ∨ ∃ u, decodePixel s = .ok u ∧ t = advance u ∧
      u = { s with txt := u.txt, shreg := u.shreg, bitcnt := u.bitcnt, prev := u.prev, ngrp := u.ngrp, draws := u.draws }) := by
  obtain ⟨⟨hphase, hmode, hidx⟩, ht⟩ := next_of_guarded h
  refine ⟨hphase, hmode, hidx, ?_⟩
  split at ht
  · cases ht
  · rename_i u hu
    rcases decodePixel_cases hu with ⟨hidle, hdone⟩ | hframe
    · rw [if_pos hidle] at ht
      cases ht; exact .inl ⟨hidle, hdone⟩
    · have hbusy : u.phase ≠ 0b00#2 := by rw [hframe]; simp [hphase]
      rw [if_neg hbusy] at ht
      cases ht; exact .inr ⟨u, hu, rfl, hframe⟩

/-- DEC_STEP's end arm raises NotFound (R189). -/
theorem execDecStepEnd_next {s t : State} (h : execDecStepEnd s = .next t) :
    s.phase = 0b10#2 ∧ s.mode = 1#1 ∧ s.idx = s.npix ∧ t = withdrawText 0 (raiseError .notFound s) := by
  obtain ⟨⟨hphase, hmode, hidx⟩, ht⟩ := next_of_guarded h
  cases ht; exact ⟨hphase, hmode, hidx, rfl⟩

/-- FRAMEBIT as an operation writes the answer and the draw counter alone (spec/41_payload_framer.md R143). -/
theorem execFramebit_frame {i : Nat} {s t : State} (h : execFramebit i s = .next t) :
    t = { s with answer := t.answer, draws := t.draws } := by
  unfold execFramebit at h
  split at h
  · rename_i hf; cases h; rw [frameBit_frame hf]; rfl
  · cases h

/-- NEXT, where its precondition holds, advances (spec/40_bit_sequencer.md R123). -/
theorem execNext_next {s t : State} (h : execNext s = .next t) : s.idx < s.npix ∧ t = advance s := by
  obtain ⟨hidx, ht⟩ := next_of_guarded h
  cases ht; exact ⟨hidx, rfl⟩

/-- In RUN the engine's step is one of the four arms (spec/30_encoding.md R103). -/
theorem fetchEngine_run {s : State} {i : Instr} (hphase : s.phase = 0b10#2) (h : fetchEngine s = .ok i) :
    i = .encStepPixel ∨ i = .encStepEnd ∨ i = .decStepPixel ∨ i = .decStepEnd := by
  have hmode : s.mode = 0#1 ∨ s.mode = 1#1 := by generalize s.mode = m; revert m; decide
  unfold fetchEngine dispatchByte at h
  rw [hphase] at h
  generalize armOf s = arm at h
  rcases hmode with hm | hm <;> rw [hm] at h <;> cases arm
  · cases h; exact .inl rfl
  · cases h; exact .inr (.inl rfl)
  · cases h
  · cases h; exact .inr (.inr (.inl rfl))
  · cases h; exact .inr (.inr (.inr rfl))
  · cases h

/-! ### What an operation can do to the control registers -/

/-- What an operation that answers a next state has done to the control registers: left them, started a command, passed its
check, or ended it; and which operations do so. -/
inductive ControlEffect (i : Instr) (s t : State) : Prop where
  | kept (control : t.control = s.control)
  | started (op : (∃ o, i = .start o) ∨ ∃ v, i = .wr 0 v) (idle : s.phase = 0b00#2) (m : BitVec 1) (latched : t = latch m s)
  | checked (op : i = .encCheck ∨ i = .decCheck) (check : s.phase = 0b01#2) (run : t = { s with phase := 0b10#2 })
  | completed (op : i = .encode ∨ i = .decode ∨ i = .encCheck ∨ i = .encStepEnd ∨ i = .decStepPixel ∨ i = .decStepEnd)
      (idle : t.phase = 0b00#2) (done : t.done = 1#1)

/-- Every operation that answers a next state has one of the four effects (R33). -/
theorem exec_controlEffect {i : Instr} {s t : State} (h : exec i s = .next t) : ControlEffect i s t := by
  cases i with
  | nop | reservedOp3 => cases h; exact .kept rfl
  | positions _ _ | readbit _ | writebit _ _ | muxsel _ _ | frame _ | unframe _ | rd _ => cases h; exact .kept rfl
  | encode =>
    rcases execEncode_cases h with ⟨_, rfl⟩ | ⟨hp, hd⟩
    · exact .kept rfl
    · exact .completed (by simp) hp hd
  | decode =>
    rcases execDecode_cases h with ⟨_, rfl⟩ | ⟨hp, hd⟩
    · exact .kept rfl
    · exact .completed (by simp) hp hd
  | encCheck =>
    obtain ⟨hp, -, ⟨e, -, rfl⟩ | ⟨-, rfl⟩⟩ := execEncCheck_cases h
    · exact .completed (by simp) rfl rfl
    · exact .checked (by simp) hp rfl
  | decCheck =>
    obtain ⟨hp, -, rfl⟩ := execDecCheck_next h
    exact .checked (by simp) hp rfl
  | encStepPixel =>
    obtain ⟨-, -, -, u, hu, rfl⟩ := execEncStepPixel_next h
    obtain ⟨_, _, _, _, hframe, _⟩ := encodePixel_cases hu
    exact .kept (congrArg State.control hframe :)
  | encStepEnd =>
    obtain ⟨-, -, -, rfl⟩ := execEncStepEnd_next h
    exact .completed (by simp) rfl rfl
  | decStepPixel =>
    obtain ⟨-, -, -, ⟨hp, hd⟩ | ⟨u, -, rfl, hframe⟩⟩ := execDecStepPixel_cases h
    · exact .completed (by simp) hp hd
    · exact .kept (congrArg State.control hframe :)
  | decStepEnd =>
    obtain ⟨-, -, -, rfl⟩ := execDecStepEnd_next h
    exact .completed (by simp) rfl rfl
  | next =>
    obtain ⟨-, rfl⟩ := execNext_next h
    exact .kept rfl
  | framebit _ => exact .kept (congrArg State.control (execFramebit_frame h) :)
  | wr reg value =>
    rcases writeReg_cases h with hframe | ⟨rfl, hp, m, -, hlatch⟩
    · exact .kept (congrArg State.control hframe :)
    · exact .started (.inr ⟨value, rfl⟩) hp m hlatch
  | start op =>
    rcases startOp_cases h with rfl | ⟨hp, m, -, hlatch⟩
    · exact .kept rfl
    · exact .started (.inl ⟨op, rfl⟩) hp m hlatch
  | wait => exact .kept (congrArg State.control (execWait_frame h) :)
  | fill _ => exact .kept (congrArg State.control (execFill_frame h).2 :)
  | drain _ => exact .kept (congrArg State.control (execDrain_frame h).2 :)

end Sys2Proof.Machine
end

section
/-! The statements of spec/10_state.md. -/

namespace Sys2Proof.Proofs

open Machine

/-- Settles O46: of the four effects an operation can have on the control registers, only a START and a completion touch STATUS and
OUT_LEN; passing the check moves PHASE within BUSY = 1. -/
theorem flagsAreWrittenOnlyByStartAndCompletion : Obligations.FlagsAreWrittenOnlyByStartAndCompletion := by
  intro i s t h
  constructor
  · cases exec_controlEffect h with
    | kept hc => exact .inl ⟨statusWord_eq_of_control hc, (control_eq_iff.mp hc).1⟩
    | started hop _ m ht => subst ht; exact .inr (.inl ⟨hop, statusWord_latch m s, rfl⟩)
    | checked _ hcheck ht => subst ht; exact .inl ⟨statusWord_check_to_run hcheck, rfl⟩
    | completed hop hp hd => exact .inr (.inr ⟨hop, hp, hd⟩)
  · intro encode decode start wr encCheck decCheck encStepEnd decStepPixel decStepEnd
    cases exec_controlEffect h with
    | kept hc =>
      obtain ⟨houtLen, hdone, herr, hphase, hmode, -⟩ := control_eq_iff.mp hc
      exact ⟨hdone, herr, hphase, houtLen, fun _ => hmode⟩
    | started hop => simp [start, wr] at hop
    | checked hop => simp [encCheck, decCheck] at hop
    | completed hop => simp [encode, decode, encCheck, encStepEnd, decStepPixel, decStepEnd] at hop

/-- Settles O47: from busy to busy an operation keeps the control registers or passes the check, which writes PHASE alone. -/
theorem latchedOperandsAreConstantWhileBusy : Obligations.LatchedOperandsAreConstantWhileBusy := by
  intro i s t h hs ht
  cases exec_controlEffect h with
  | kept hc =>
    obtain ⟨-, -, -, -, hlatched⟩ := control_eq_iff.mp hc
    exact hlatched
  | started _ hidle => exact absurd hidle hs
  | checked _ _ hrun => subst hrun; exact ⟨rfl, rfl, rfl, rfl, rfl, rfl⟩
  | completed _ hidle => exact absurd hidle ht

/-- Settles O49: a pixel arm that does not complete takes NEXT on a state whose IDX is the one it found; an end arm completes. -/
theorem everyRunStepAdvancesTheIndexOrCompletes : Obligations.EveryRunStepAdvancesTheIndexOrCompletes := by
  intro s t i hphase hfetch h
  rcases fetchEngine_run hphase hfetch with rfl | rfl | rfl | rfl
  · obtain ⟨-, -, hlt, u, hu, rfl⟩ := execEncStepPixel_next h
    obtain ⟨_, _, _, _, hframe, _⟩ := encodePixel_cases hu
    exact .inl ⟨by rw [hframe]; simp, by rw [hframe]; simp [hphase], hlt⟩
  · obtain ⟨-, -, -, rfl⟩ := execEncStepEnd_next h
    exact .inr ⟨rfl, rfl⟩
  · obtain ⟨-, -, hlt, hdone | ⟨u, -, rfl, hframe⟩⟩ := execDecStepPixel_cases h
    · exact .inr hdone
    · exact .inl ⟨by rw [hframe]; simp, by rw [hframe]; simp [hphase], hlt⟩
  · obtain ⟨-, -, -, rfl⟩ := execDecStepEnd_next h
    exact .inr ⟨rfl, rfl⟩

/-- Settles O5: the values are those `State.reset` names, and with PHASE IDLE and nothing scheduled the engine has no step. -/
theorem resetLeavesTheSpecifiedValues : Obligations.ResetLeavesTheSpecifiedValues :=
  ⟨rfl, rfl, rfl, rfl, rfl, rfl, fun _ => ⟨rfl, rfl, rfl, rfl⟩, rfl⟩

/-- Settles O48: the capacity check reads nothing but what the two states agree on, and the latch writes everything else. -/
theorem startLeavesNothingOfThePast : Obligations.StartLeavesNothingOfThePast := by
  intro s t op hs ht hop hpar hwidth hheight hlen hpixin hpixout hpay htxt hmoves hanswer hdraws hstale
  have hcap (m : BitVec 1) : capacitiesCover m t = capacitiesCover m s := by
    simp only [capacitiesCover, hpar, hwidth, hheight, hlen]
  have hlatch (m : BitVec 1) : latch m t = latch m s := by
    simp only [latch, hpar, hwidth, hheight, hlen, hpixin, hpixout, hpay, htxt, hmoves, hanswer, hdraws, hstale]
  have hcommand (m : BitVec 1) : startCommand m t = startCommand m s := by
    simp [startCommand, hs, ht, hcap, hlatch]
  rcases hop with rfl | rfl
  · exact hcommand 0#1
  · exact hcommand 1#1

end Sys2Proof.Proofs
end

section
/-! SUPPORT. What the operations of `exec` can do to the parameters and the four memories (spec/20_memory.md section 2), and that a
command beyond the capacities is refused (R71). -/

namespace Sys2Proof.Machine

/-- The memories of a block, with the parameters that bound them (spec/10_state.md R35, spec/00_scope.md R8). -/
structure Storage where
  par : Params
  pixin : Memory Pixel
  pixout : Memory Pixel
  pay : Memory Byte
  txt : Memory Byte

/-- The parameters and memories of a state. -/
def State.storage (s : State) : Storage :=
  { par := s.par, pixin := s.pixin, pixout := s.pixout, pay := s.pay, txt := s.txt }

/-- Two states agree on the storage exactly when they agree on the parameters and on each memory. -/
theorem storage_eq_iff {s t : State} : t.storage = s.storage ↔
    t.par = s.par ∧ t.pixin = s.pixin ∧ t.pixout = s.pixout ∧ t.pay = s.pay ∧ t.txt = s.txt := by
  simp [State.storage]

/-- Two states agree on the storage but for PIXOUT exactly when they agree on the parameters and the other memories. -/
theorem storage_eq_but_pixout_iff {s t : State} : t.storage = { s.storage with pixout := t.pixout } ↔
    t.par = s.par ∧ t.pixin = s.pixin ∧ t.pay = s.pay ∧ t.txt = s.txt := by
  simp [State.storage]

/-- Two states agree on the storage but for TXT exactly when they agree on the parameters and the other memories. -/
theorem storage_eq_but_txt_iff {s t : State} : t.storage = { s.storage with txt := t.txt } ↔
    t.par = s.par ∧ t.pixin = s.pixin ∧ t.pixout = s.pixout ∧ t.pay = s.pay := by
  simp [State.storage]

/-- A state that keeps the storage keeps it but for TXT. -/
theorem storage_eq_but_txt_of_eq {s t : State} (h : t.storage = s.storage) :
    t.storage = { s.storage with txt := t.txt } := by
  rw [← h]; rfl

/-! ### ENCODE writes PIXOUT alone -/

theorem encodePixel_storage {i : Nat} {s t : State} (h : encodePixel i s = .ok t) :
    t.storage = { s.storage with pixout := t.pixout } := by
  obtain ⟨_, _, _, _, ht, _⟩ := encodePixel_cases h
  rw [ht]; rfl

theorem runEncode_storage {s t : State} (h : runEncode s = .ok t) :
    t.storage = { s.storage with pixout := t.pixout } := by
  unfold runEncode at h
  split at h
  · cases h; rfl
  · split at h
    · rename_i hpass; cases h; exact (congrArg State.storage (encodePass_frame hpass) :)
    · cases h

/-- ENCODE, ignored or run, writes no memory but PIXOUT (spec/42_encoder.md R164). -/
theorem execEncode_storage {s t : State} (h : execEncode s = .next t) :
    t.storage = { s.storage with pixout := t.pixout } := by
  unfold execEncode at h
  split at h
  · cases h; rfl
  · exact (runEncode_storage (toOutcome_eq_next.mp (next_of_guarded h).2) :)

/-! ### DECODE writes TXT alone -/

theorem runDecode_storage {s t : State} (h : runDecode s = .ok t) : t.storage = { s.storage with txt := t.txt } := by
  unfold runDecode at h
  split at h
  · cases h
  · rename_i hread
    have hs1 := (readBits_frame hread).1
    split at h
    · cases h; exact storage_eq_but_txt_of_eq (congrArg State.storage hs1 :)
    · split at h
      · cases h
      · rename_i htext
        have hs2 := writeText_frame htext
        rw [hs1] at hs2
        cases h; exact (congrArg State.storage hs2 :)

/-- DECODE, ignored or run, writes no memory but TXT (spec/20_memory.md R66). -/
theorem execDecode_storage {s t : State} (h : execDecode s = .next t) :
    t.storage = { s.storage with txt := t.txt } := by
  unfold execDecode at h
  split at h
  · cases h; rfl
  · exact (runDecode_storage (toOutcome_eq_next.mp (next_of_guarded h).2) :)

/-- GROUP_COMPLETE, on a match or not, writes no memory but TXT (spec/43_decoder.md R188). -/
theorem groupComplete_storage {v : Byte} {s t : State} (h : groupComplete v s = .ok t) :
    t.storage = { s.storage with txt := t.txt } := by
  rcases groupComplete_cases h with ⟨_, ht⟩ | ⟨_, ht⟩ <;> (rw [ht]; rfl)

theorem decodePixel_storage {s t : State} (h : decodePixel s = .ok t) :
    t.storage = { s.storage with txt := t.txt } := by
  unfold decodePixel at h
  split at h
  · cases h
  · rename_i s1 hread
    have hs1 : s1.storage = s.storage := (congrArg State.storage (readPixel_frame hread) :)
    split at h
    · rw [groupComplete_storage h, hs1]
    · cases h; exact storage_eq_but_txt_of_eq hs1

/-- DEC_STEP's pixel arm, completing or not, writes no memory but TXT (R187, R188). -/
theorem execDecStepPixel_storage {s t : State} (h : execDecStepPixel s = .next t) :
    t.storage = { s.storage with txt := t.txt } := by
  have ht := (next_of_guarded h).2
  split at ht
  · cases ht
  · rename_i hpixel
    split at ht <;> (cases ht; exact (decodePixel_storage hpixel :))

/-! ### What an operation can do to the storage -/

/-- What an operation that answers a next state has done to the parameters and the memories: left them, embedded into PIXOUT,
extracted into TXT, or filled; and which operations do so. -/
inductive StorageEffect (i : Instr) (s t : State) : Prop where
  | kept (storage : t.storage = s.storage)
  | embedded (op : i = .encode ∨ i = .encStepPixel) (storage : t.storage = { s.storage with pixout := t.pixout })
  | extracted (op : i = .decode ∨ i = .decStepPixel) (storage : t.storage = { s.storage with txt := t.txt })
  | filled (f : FillOp) (op : i = .fill f) (par : t.par = s.par)

/-- Every operation that answers a next state has one of the four effects (spec/20_memory.md R63 to R66). -/
theorem exec_storageEffect {i : Instr} {s t : State} (h : exec i s = .next t) : StorageEffect i s t := by
  cases i with
  | nop | reservedOp3 => cases h; exact .kept rfl
  | positions _ _ | readbit _ | writebit _ _ | muxsel _ _ | frame _ | unframe _ | rd _ => cases h; exact .kept rfl
  | encode => exact .embedded (.inl rfl) (execEncode_storage h)
  | decode => exact .extracted (.inl rfl) (execDecode_storage h)
  | encCheck =>
    obtain ⟨-, -, ⟨_, -, rfl⟩ | ⟨-, rfl⟩⟩ := execEncCheck_cases h
    · exact .kept rfl
    · exact .kept rfl
  | decCheck =>
    obtain ⟨-, -, rfl⟩ := execDecCheck_next h
    exact .kept rfl
  | encStepPixel =>
    obtain ⟨-, -, -, u, hu, rfl⟩ := execEncStepPixel_next h
    exact .embedded (.inr rfl) (encodePixel_storage hu :)
  | encStepEnd =>
    obtain ⟨-, -, -, rfl⟩ := execEncStepEnd_next h
    exact .kept rfl
  | decStepPixel => exact .extracted (.inr rfl) (execDecStepPixel_storage h)
  | decStepEnd =>
    obtain ⟨-, -, -, rfl⟩ := execDecStepEnd_next h
    exact .kept rfl
  | next =>
    obtain ⟨-, rfl⟩ := execNext_next h
    exact .kept rfl
  | framebit _ => exact .kept (congrArg State.storage (execFramebit_frame h) :)
  | wr _ _ =>
    rcases writeReg_cases h with hframe | ⟨-, -, m, -, rfl⟩
    · exact .kept (congrArg State.storage hframe :)
    · exact .kept rfl
  | start _ =>
    rcases startOp_cases h with rfl | ⟨-, m, -, rfl⟩
    · exact .kept rfl
    · exact .kept rfl
  | wait => exact .kept (congrArg State.storage (execWait_frame h) :)
  | fill f => exact .filled f rfl (congrArg State.par (execFill_frame h).2 :)
  | drain _ => exact .kept (congrArg State.storage (execDrain_frame h).2 :)

/-! ### Commands beyond the capacities -/

section
variable {s : State} (idle : s.phase = 0b00#2)
include idle

/-- A START beyond the capacities is refused (R71; spec/93_implementation_defined.md U5). -/
theorem startCommand_refused {m : BitVec 1} (hcap : capacitiesCover m s = false) :
    startCommand m s = .refused .memoryTooSmall := by
  simp [startCommand, idle, hcap]

/-- The whole command ENCODE beyond the capacities is refused. -/
theorem execEncode_refused (hcap : capacitiesCover 0#1 s = false) : execEncode s = .refused .memoryTooSmall := by
  simp [execEncode, idle, hcap]

/-- The whole command DECODE beyond the capacities is refused. -/
theorem execDecode_refused (hcap : capacitiesCover 1#1 s = false) : execDecode s = .refused .memoryTooSmall := by
  simp [execDecode, idle, hcap]

end

end Sys2Proof.Machine
end

section
/-! The statements of spec/20_memory.md. -/

namespace Sys2Proof.Proofs

open Machine

/-- Settles O44: of the four effects an operation can have on the storage, only a FILL reaches PIXIN and PAY, and none the
parameters. -/
theorem onlyFillChangesTheInputMemories : Obligations.OnlyFillChangesTheInputMemories := by
  intro i s t h
  cases exec_storageEffect h with
  | kept hs =>
    obtain ⟨hpar, hpixin, -, hpay, -⟩ := storage_eq_iff.mp hs
    exact ⟨hpar, fun _ => ⟨hpixin, hpay⟩⟩
  | embedded _ hs =>
    obtain ⟨hpar, hpixin, hpay, -⟩ := storage_eq_but_pixout_iff.mp hs
    exact ⟨hpar, fun _ => ⟨hpixin, hpay⟩⟩
  | extracted _ hs =>
    obtain ⟨hpar, hpixin, -, hpay⟩ := storage_eq_but_txt_iff.mp hs
    exact ⟨hpar, fun _ => ⟨hpixin, hpay⟩⟩
  | filled f hop hpar => exact ⟨hpar, fun hfill => absurd hop (hfill f)⟩

/-- Settles O45: what embeds keeps TXT, what extracts keeps PIXOUT, and nothing else but a FILL writes either. -/
theorem outputMemoriesHaveOneWriterEach : Obligations.OutputMemoriesHaveOneWriterEach := by
  intro i s t h hfill
  cases exec_storageEffect h with
  | kept hs =>
    obtain ⟨-, -, hpixout, -, htxt⟩ := storage_eq_iff.mp hs
    exact ⟨fun _ _ => hpixout, fun _ _ => htxt⟩
  | embedded hop hs =>
    obtain ⟨-, -, -, htxt⟩ := storage_eq_but_pixout_iff.mp hs
    exact ⟨fun hencode hpixel => absurd hop (not_or.mpr ⟨hencode, hpixel⟩), fun _ _ => htxt⟩
  | extracted hop hs =>
    obtain ⟨-, -, hpixout, -⟩ := storage_eq_but_txt_iff.mp hs
    exact ⟨fun _ _ => hpixout, fun hdecode hpixel => absurd hop (not_or.mpr ⟨hdecode, hpixel⟩)⟩
  | filled f hop => exact absurd hop (hfill f)

/-- Settles O9: START and WR CMD run the START of the command their operand selects, and it and the whole command check the
capacities before they latch. -/
theorem startBeyondTheMemoriesIsRefused : Obligations.StartBeyondTheMemoriesIsRefused := by
  intro s idle
  constructor <;> intro hcap
  · exact ⟨startCommand_refused idle hcap, startCommand_refused idle hcap, execEncode_refused idle hcap⟩
  · exact ⟨startCommand_refused idle hcap, startCommand_refused idle hcap, execDecode_refused idle hcap⟩

end Sys2Proof.Proofs
end

section
/-! SUPPORT. The two encodings of the block (spec/30_encoding.md R101, R103, R105), the pixel word (R90), and that STATUS stays one of
the words of R102. -/

namespace Sys2Proof

/-! ### The command word -/

/-- Decoding the word of an operation that has one gives the operation back, with the bytes after the word (R101, R103). -/
theorem decode_encode {i : Instr} {f : Format} {bs : List Byte} (h : encode i = some (f, bs)) (rest : List Byte) :
    decode f (bs ++ rest) = .ok (i, rest) := by
  cases i <;> cases h
  all_goals rfl

/-- A byte whose low two bits are known, cut to them. -/
theorem extractLsb'_eq_of_lowBits {b : Byte} {hi lo : Bool} (h1 : b.getLsbD 1 = hi) (h0 : b.getLsbD 0 = lo) :
    b.extractLsb' 0 2 = BitVec.ofBool hi ++ BitVec.ofBool lo := by
  refine BitVec.eq_of_getLsbD_eq fun i hlt => ?_
  rw [BitVec.getLsbD_append]
  obtain rfl | rfl : i = 0 ∨ i = 1 := by omega
  · simpa using h0
  · simpa using h1

/-- A command byte decodes by its low two bits, whatever the bits above (R105). -/
theorem decode_cmd_of_lowBits {b : Byte} {hi lo : Bool} (h1 : b.getLsbD 1 = hi) (h0 : b.getLsbD 0 = lo) (rest : List Byte) :
    decode .cmd (b :: rest) = .ok (decodeCmd (BitVec.ofBool hi ++ BitVec.ofBool lo), rest) := by
  rw [← extractLsb'_eq_of_lowBits h1 h0]; rfl

/-! ### The step dispatch word -/

/-- PHASE = 00 selects no step, in either mode (R103). -/
theorem decodeStep_idle (arm : Arm) (mode : BitVec 1) : decodeStep arm (0b00#2 ++ mode) = .error .idle := by
  rcases BitVec.eq_zero_or_eq_one mode with rfl | rfl <;> rfl

/-- PHASE = 11 is unreachable, in either mode (R103). -/
theorem decodeStep_unreachable (arm : Arm) (mode : BitVec 1) : decodeStep arm (0b11#2 ++ mode) = .error .unreachable := by
  rcases BitVec.eq_zero_or_eq_one mode with rfl | rfl <;> rfl

namespace Machine

/-- The engine's step is what `PHASE ++ MODE` decodes to under the arm condition: the dispatch byte holds that word and no bit
above it (R103). -/
theorem fetchEngine_eq_decodeStep (s : State) : fetchEngine s = decodeStep (armOf s) (s.phase ++ s.mode) := by
  have hbyte : dispatchByte s = 0#5 ++ (s.phase ++ s.mode) := BitVec.append_assoc
  have hhigh : (dispatchByte s).extractLsb' 3 5 = 0#5 := hbyte ▸ BitVec.extractLsb'_append_eq_left
  have hlow : (dispatchByte s).extractLsb' 0 3 = s.phase ++ s.mode := hbyte ▸ BitVec.extractLsb'_append_eq_right
  simp only [fetchEngine, fetchWord, decode, hhigh, hlow, if_true]
  cases decodeStep (armOf s) (s.phase ++ s.mode) <;> rfl

/-- The pixel arm: IDX < NPIX (R103). -/
theorem armOf_of_lt {s : State} (h : s.idx < s.npix) : armOf s = .pixel := if_pos h

/-- The end arm: IDX = NPIX (R103). -/
theorem armOf_of_eq {s : State} (h : s.idx = s.npix) : armOf s = .last := by simp [armOf, h]

/-! ### The pixel word -/

section
variable (xch : Nat) (p : Pixel)

/-- Bits 7:0 of the pixel word are B (R90). -/
theorem extractLsb'_pixelWord_b : (pixelWord xch p).extractLsb' 0 8 = p.b := BitVec.extractLsb'_append_eq_right

/-- Bits 15:8 of the pixel word are G (R90). -/
theorem extractLsb'_pixelWord_g : (pixelWord xch p).extractLsb' 8 8 = p.g := by
  rw [pixelWord, BitVec.extractLsb'_append_eq_of_le (by omega)]
  exact BitVec.extractLsb'_append_eq_right

/-- Bits 23:16 of the pixel word are R (R90). -/
theorem extractLsb'_pixelWord_r : (pixelWord xch p).extractLsb' 16 8 = p.r := by
  rw [pixelWord, BitVec.extractLsb'_append_eq_of_le (by omega), BitVec.extractLsb'_append_eq_of_le (by omega)]
  exact BitVec.extractLsb'_append_eq_right

/-- The bits of the pixel word from 24 on are X, cut to XCH bits (R90). -/
theorem extractLsb'_pixelWord_x : (pixelWord xch p).extractLsb' 24 xch = BitVec.ofNat xch p.x := by
  rw [pixelWord, BitVec.extractLsb'_append_eq_of_le (by omega), BitVec.extractLsb'_append_eq_of_le (by omega)]
  exact BitVec.extractLsb'_append_eq_left

end

/-- A bit of a field cut out of a word is the word's bit at the field's place. -/
theorem getLsbD_add_of_extractLsb' {n k len i : Nat} {w : BitVec n} {v : BitVec len} (h : w.extractLsb' k len = v)
    (hi : i < len) : w.getLsbD (k + i) = v.getLsbD i := by
  rw [← h]; simp [hi]

/-- Unpacking a packed pixel whose extra bits fit gives the pixel back (R90). -/
theorem pixelOfWord_pixelWord {xch : Nat} {p : Pixel} (h : p.x < 2 ^ xch) : pixelOfWord xch (pixelWord xch p) = p := by
  simp [pixelOfWord, extractLsb'_pixelWord_b, extractLsb'_pixelWord_g, extractLsb'_pixelWord_r, extractLsb'_pixelWord_x,
    Nat.mod_eq_of_lt h]

/-- Packing an unpacked word gives the word back: its four fields are adjacent and cover it (R90). -/
theorem pixelWord_pixelOfWord (xch : Nat) (w : BitVec (xch + 8 + 8 + 8)) : pixelWord xch (pixelOfWord xch w) = w := by
  simp only [pixelWord, pixelOfWord, BitVec.ofNat_toNat, BitVec.setWidth_eq]
  iterate 3 rw [BitVec.extractLsb'_append_extractLsb'_eq_extractLsb' (by rfl)]
  exact BitVec.extractLsb'_eq_self

/-- READBIT is bit 0 of the red channel (spec/40_bit_sequencer.md R124). -/
theorem readBit_eq_getLsbD (p : Pixel) : readBit p = p.r.getLsbD 0 := by
  unfold readBit
  rw [BitVec.and_one_eq_setWidth_ofBool_getLsbD]
  cases p.r.getLsbD 0 <;> rfl

/-! ### STATUS -/

/-- A state of legal STATUS shows one of the six words of R102. -/
theorem statusWord_of_statusLegal {s : State} (h : StatusLegal s) : statusWord s = 0b0000#4 ∨ statusWord s = 0b0001#4 ∨
    statusWord s = 0b0010#4 ∨ statusWord s = 0b0110#4 ∨ statusWord s = 0b1010#4 ∨ statusWord s = 0b1110#4 := by
  obtain ⟨hbusy, hrun⟩ := h
  by_cases hphase : s.phase = 0b00#2
  · rcases BitVec.eq_zero_or_eq_one s.done with hdone | hdone
    · simp [statusWord, busyBit, hphase, hdone, hrun hdone]
    · simp only [statusWord, busyBit, hphase, hdone, if_true]
      generalize s.err = e
      revert e; decide
  · obtain ⟨hdone, herr⟩ := hbusy hphase
    simp [statusWord, busyBit, hphase, hdone, herr]

/-- Legal STATUS is a matter of the control registers alone (R23). -/
theorem statusLegal_of_control_eq {s t : State} (hc : t.control = s.control) (h : StatusLegal s) : StatusLegal t := by
  obtain ⟨-, hdone, herr, hphase, -⟩ := control_eq_iff.mp hc
  simpa only [StatusLegal, hdone, herr, hphase] using h

/-- STATUS is legal at the end of a command, whatever its outcome (spec/60_exceptions.md R224, R225). -/
theorem statusLegal_of_completed {s : State} (idle : s.phase = 0b00#2) (done : s.done = 1#1) : StatusLegal s :=
  ⟨fun busy => absurd idle busy, fun running => by simp [done] at running⟩

/-- Every operation keeps STATUS legal. -/
theorem exec_statusLegal {i : Instr} {s t : State} (h : exec i s = .next t) (hs : StatusLegal s) : StatusLegal t := by
  cases exec_controlEffect h with
  | kept hc => exact statusLegal_of_control_eq hc hs
  | started _ _ m ht => subst ht; exact ⟨fun _ => ⟨rfl, rfl⟩, fun _ => rfl⟩
  | checked _ check ht => subst ht; exact ⟨fun _ => hs.1 (by simp [check]), hs.2⟩
  | completed _ idle done => exact statusLegal_of_completed idle done

/-- Every step keeps STATUS legal: a reset clears it, a host's decision leaves the control registers, an operation keeps it. -/
theorem step_statusLegal {s t : State} (h : step s = .next t) (hs : StatusLegal s) : StatusLegal t := by
  rcases step_cases h with ⟨-, rfl⟩ | ⟨d, -, hd⟩ | ⟨s0, hs0, hop⟩
  · exact ⟨fun busy => absurd rfl busy, fun _ => rfl⟩
  · exact statusLegal_of_control_eq (congrArg State.control (hostTest_frame hd) :) hs
  · have hcontrol : s0.control = s.control := by rcases hs0 with rfl | rfl <;> rfl
    have hlegal := statusLegal_of_control_eq hcontrol hs
    rcases hop with rfl | ⟨i, -, hexec⟩
    · exact hlegal
    · exact exec_statusLegal hexec hlegal

end Machine

end Sys2Proof
end

section
/-! The statements of spec/30_encoding.md. -/

namespace Sys2Proof.Proofs

open Machine

/-- Settles O59: every step keeps STATUS legal, and a legal STATUS is one of the six words. -/
theorem statusIsAlwaysOneOfSixWords : Obligations.StatusIsAlwaysOneOfSixWords := by
  intro s t hs h
  have ht := step_statusLegal h hs
  exact ⟨ht, statusWord_of_statusLegal ht⟩

/-- Settles O3: the fields cut out of the packed word are the pixel's, so its bits are theirs and unpacking gives the pixel back. -/
theorem pixelWordRoundTrip : Obligations.PixelWordRoundTrip := by
  intro xch p w
  have red {i : Nat} (hi : i < 8) := getLsbD_add_of_extractLsb' (extractLsb'_pixelWord_r xch p) hi
  refine ⟨pixelOfWord_pixelWord, pixelWord_pixelOfWord xch w, ?_, fun i hi => ⟨?_, ?_, red hi⟩, fun i hi => ?_⟩
  · rw [readBit_eq_getLsbD]; exact red (i := 0) (by decide)
  · simpa using getLsbD_add_of_extractLsb' (extractLsb'_pixelWord_b xch p) hi
  · exact getLsbD_add_of_extractLsb' (extractLsb'_pixelWord_g xch p) hi
  · rw [getLsbD_add_of_extractLsb' (extractLsb'_pixelWord_x xch p) hi, BitVec.getLsbD_ofNat]
    simp [hi]

/-- Settles O1: the step is what the dispatch word decodes to, and each row fixes PHASE, MODE and the arm as far as it needs. -/
theorem engineStepIsChosenByPhaseModeAndIndex : Obligations.EngineStepIsChosenByPhaseModeAndIndex := by
  intro s
  rw [fetchEngine_eq_decodeStep]
  refine ⟨fun hp => ?_, fun hp hm => ?_, fun hp hm => ?_, fun hp hm hi => ?_, fun hp hm hi => ?_, fun hp hm hi => ?_,
    fun hp hm hi => ?_, fun hp => ?_⟩
  · rw [hp, decodeStep_idle]
  · rw [hp, hm]; rfl
  · rw [hp, hm]; rfl
  · rw [hp, hm, armOf_of_lt hi]; rfl
  · rw [hp, hm, armOf_of_eq hi]; rfl
  · rw [hp, hm, armOf_of_lt hi]; rfl
  · rw [hp, hm, armOf_of_eq hi]; rfl
  · rw [hp, decodeStep_unreachable]

/-- Settles O2: decoding inverts encoding, the checks' words do not look at the arm, and a command byte is its low two bits. -/
theorem wordsDecodeToTheirOperations : Obligations.WordsDecodeToTheirOperations :=
  ⟨fun _ _ _ rest h => decode_encode h rest, fun _ _ => ⟨rfl, rfl⟩, fun _ rest =>
    ⟨fun h1 h0 => decode_cmd_of_lowBits h1 h0 rest, fun h1 h0 => decode_cmd_of_lowBits h1 h0 rest,
      fun h1 h0 => decode_cmd_of_lowBits h1 h0 rest, fun h1 h0 => decode_cmd_of_lowBits h1 h0 rest⟩⟩

/-- Settles O7: NOP and the reserved word answer the state as it is, and a WR of CMD is the START of its value's low two bits. -/
theorem nopAndReservedWordDoNothing : Obligations.NopAndReservedWordDoNothing := by
  intro s
  have lowBits (v : Nat) : exec (.wr 0 v) s = exec (.wr 0 (v % 4)) s :=
    congrArg (startOp · s) (BitVec.eq_of_toNat_eq (by simp))
  refine ⟨rfl, rfl, rfl, rfl, fun v hv => ?_, lowBits⟩
  rw [lowBits]
  rcases hv with hv | hv <;> (rw [hv]; rfl)

end Sys2Proof.Proofs
end

section
/-! SUPPORT. The Bit Sequencer's functions (spec/40_bit_sequencer.md): POSITIONS in closed form, NEXT's position, every bit of
WRITEBIT's red channel and what follows of it, MUXSEL on each range. -/

namespace Sys2Proof.Machine

/-! ### POSITIONS -/

/-- One row more is appended below the rows there are. -/
theorem positions_succ (w h : Nat) : positions w (h + 1) = positions w h ++ (List.range w).map fun x => (x, h) := by
  simp [positions, List.range_succ]

/-- POSITIONS in closed form: the `i`-th position is the pixel of memory index `i` (R121, R61). -/
theorem positions_eq_map_range (w h : Nat) : positions w h = (List.range (w * h)).map fun i => (i % w, i / w) := by
  induction h with
  | zero => rfl
  | succ h ih =>
    have row : ∀ x ∈ List.range w, (x, h) = ((w * h + x) % w, (w * h + x) / w) := by
      intro x hx
      rw [List.mem_range] at hx
      rw [Nat.mul_add_mod, Nat.mul_add_div (by omega), Nat.mod_eq_of_lt hx, Nat.div_eq_of_lt hx, Nat.add_zero]
    rw [positions_succ, ih, Nat.mul_succ, List.range_add, List.map_append, List.map_map]
    exact congrArg _ (List.map_congr_left row)

/-! ### NEXT -/

/-- Below NPIX, NEXT advances (R123). -/
theorem execNext_of_lt {s : State} (h : s.idx < s.npix) : execNext s = .next (advance s) := if_pos h

/-- X, Y after NEXT are the position whose index is one more: the wrap adds the one by beginning the next row (R123). -/
theorem elementIndex_advance (s : State) :
    elementIndex s.wL (advance s).x (advance s).y = elementIndex s.wL s.x s.y + 1 := by
  simp only [elementIndex, advance_x, advance_y]
  split
  case isTrue wrap => rw [Nat.add_mul]; omega
  case isFalse => omega

/-! ### READBIT and WRITEBIT -/

@[simp] theorem writeBit_g (p : Pixel) (b : Bool) : (writeBit p b).g = p.g := rfl
@[simp] theorem writeBit_b (p : Pixel) (b : Bool) : (writeBit p b).b = p.b := rfl
@[simp] theorem writeBit_x (p : Pixel) (b : Bool) : (writeBit p b).x = p.x := rfl

/-- Every bit of the red channel after WRITEBIT (R125). -/
theorem writeBit_r_getLsbD (p : Pixel) (b : Bool) (j : Nat) :
    (writeBit p b).r.getLsbD j = if j = 0 then b else p.r.getLsbD j := by
  have mask : (0xFE#8).getLsbD j = (decide (j < 8) && !decide (j = 0)) := by
    rw [show 0xFE#8 = ~~~1#8 by decide, BitVec.getLsbD_not, BitVec.getLsbD_one]; simp
  have bit : (if b then 1#8 else 0#8).getLsbD j = (b && decide (j = 0)) := by
    cases b <;> simp
  simp only [writeBit, BitVec.getLsbD_or, BitVec.getLsbD_and, mask, bit]
  by_cases hj : j = 0
  · simp [hj]
  · simpa [hj] using BitVec.lt_of_getLsbD

/-- Pixels are equal when their red channels agree bit by bit and their other fields agree. -/
theorem pixel_eq_of_getLsbD {p q : Pixel} (hr : ∀ j, p.r.getLsbD j = q.r.getLsbD j) (hg : p.g = q.g) (hb : p.b = q.b)
    (hx : p.x = q.x) : p = q := by
  cases p; cases q
  rw [Pixel.mk.injEq]
  exact ⟨hx, BitVec.eq_of_getLsbD_eq fun j _ => hr j, hg, hb⟩

/-- Reading after writing gives the bit (R126). -/
@[simp] theorem readBit_writeBit (p : Pixel) (b : Bool) : readBit (writeBit p b) = b := by
  rw [readBit_eq_getLsbD, writeBit_r_getLsbD, if_pos rfl]

/-- Writing the bit read changes nothing (R126). -/
@[simp] theorem writeBit_readBit (p : Pixel) : writeBit p (readBit p) = p := by
  refine pixel_eq_of_getLsbD (fun j => ?_) rfl rfl rfl
  rw [writeBit_r_getLsbD, readBit_eq_getLsbD]
  split
  case isTrue hj => rw [hj]
  case isFalse => rfl

/-- The last write wins (R126). -/
@[simp] theorem writeBit_writeBit (p : Pixel) (b c : Bool) : writeBit (writeBit p b) c = writeBit p c := by
  refine pixel_eq_of_getLsbD (fun j => ?_) rfl rfl rfl
  simp only [writeBit_r_getLsbD]
  split <;> rfl

/-- A write keeps `R[7:1]` (R126). -/
theorem writeBit_r_shiftRight_one (p : Pixel) (b : Bool) : (writeBit p b).r >>> 1 = p.r >>> 1 := by
  refine BitVec.eq_of_getLsbD_eq fun j _ => ?_
  rw [BitVec.getLsbD_ushiftRight, BitVec.getLsbD_ushiftRight, writeBit_r_getLsbD, if_neg (by omega)]

/-! ### MUXSEL -/

section
variable {i n : Nat}

/-- Below `8n`, the payload (R127). -/
theorem muxSel_payload (h : i < 8 * n) : muxSel i n = .payload := if_pos h

/-- From `8n` on, 16 bits of sentinel (R127). -/
theorem muxSel_sentinel (h : 8 * n ≤ i) (h' : i < 8 * n + 16) : muxSel i n = .sentinel := by
  rw [muxSel, if_neg (by omega), if_pos h']

/-- From `8n + 16` on, the pixel passes (R127). -/
theorem muxSel_pass (h : 8 * n + 16 ≤ i) : muxSel i n = .pass := by
  rw [muxSel, if_neg (by omega), if_neg (by omega)]

end

end Sys2Proof.Machine
end

section
/-! The statements of spec/40_bit_sequencer.md. -/

namespace Sys2Proof.Proofs

open Machine

/-- Settles O18: POSITIONS is the map of `i ↦ (i mod w, i div w)` over the indices below `w × h`. -/
theorem positionsAreRowMajor : Obligations.PositionsAreRowMajor := by
  intro s w h
  refine ⟨positions w h, rfl, ?_, fun i hi => ?_⟩
  · simp [positions_eq_map_range]
  · simp [positions_eq_map_range, hi]

/-- Settles O19: the wrap condition is the model's `X + 1 = W_L` where `W_L ≥ 1`, and X, Y move to the next index. -/
theorem nextAdvancesByOnePosition : Obligations.NextAdvancesByOnePosition := by
  intro s hlt hw
  have hexec : exec .next s = .next (advance s) := execNext_of_lt hlt
  have wrap : s.x = s.wL - 1 ↔ s.x + 1 = s.wL := by omega
  refine ⟨by simp only [hexec, advance, wrap], fun hpos t ht => ?_⟩
  obtain rfl : advance s = t := by simpa [hexec] using ht
  calc (advance s).idx = elementIndex s.wL s.x s.y + 1 := congrArg (· + 1) hpos
    _ = elementIndex s.wL (advance s).x (advance s).y := (elementIndex_advance s).symm

/-- Settles O20: READBIT is `R[0]`, and by its definition it is set exactly where `R and 1` is 1. -/
theorem readbitIsRedBitZero : Obligations.ReadbitIsRedBitZero := by
  intro s p
  rw [← readBit_eq_getLsbD]
  exact ⟨rfl, decide_eq_true_iff⟩

/-- Settles O21: the answer is `writeBit p b`, whose red bits from 1 on are the pixel's. -/
theorem writebitReplacesRedBitZero : Obligations.WritebitReplacesRedBitZero := by
  intro s p b
  refine ⟨writeBit p b, rfl, rfl, rfl, rfl, rfl, fun j hj => ?_⟩
  rw [writeBit_r_getLsbD, if_neg (by omega)]

/-- Settles O22: each law is read off the bits of the written red channel. -/
theorem readbitWritebitLaws : Obligations.ReadbitWritebitLaws := fun p b c =>
  ⟨readBit_writeBit p b, writeBit_readBit p, writeBit_writeBit p b c, rfl, rfl, rfl, writeBit_r_shiftRight_one p b⟩

/-- Settles O23: the answer is `muxSel i n`, whose two tests cut the three ranges. -/
theorem muxselSelectsByRange : Obligations.MuxselSelectsByRange := by
  intro s i n
  have hexec {m : MuxSource} (h : muxSel i n = m) : exec (.muxsel i n) s = .next { s with answer := .source m } := by
    subst h; rfl
  exact ⟨fun h => hexec (muxSel_payload h), fun h h' => hexec (muxSel_sentinel h h'), fun h => hexec (muxSel_pass h)⟩

end Sys2Proof.Proofs
end

section
/-! SUPPORT. The Payload Framer's functions (spec/41_payload_framer.md): every bit of FRAME, FRAMEBIT on each side of the payload's
end, the groups of a bitstream, and UNFRAME as the search for the first sentinel pair. -/

namespace Sys2Proof.Machine

/-! ### FRAME -/

/-- Bit `j` of a byte's bitstream is bit `7 - j` of the byte (R94). -/
theorem byteBits_getElem? (b : Byte) {j : Nat} (hj : j < 8) : (byteBits b)[j]? = some (b.getLsbD (7 - j)) := by
  interval_cases j <;> rfl

/-- The bits of a byte sequence, eight per byte (R93). -/
theorem length_flatMap_byteBits (t : List Byte) : (t.flatMap byteBits).length = 8 * t.length := by
  simp [List.length_flatMap, byteBits, Nat.mul_comm]

/-- Bit `8k + j` of a byte sequence's bits is bit `7 - j` of byte `k` (R93, R94). -/
theorem flatMap_byteBits_getElem? {t : List Byte} {k j : Nat} {b : Byte} (hb : t[k]? = some b) (hj : j < 8) :
    (t.flatMap byteBits)[8 * k + j]? = some (b.getLsbD (7 - j)) := by
  induction t generalizing k with
  | nil => cases hb
  | cons a t ih =>
    have hlen : (byteBits a).length = 8 := rfl
    rw [List.flatMap_cons]
    cases k with
    | zero =>
      obtain rfl : a = b := by simpa using hb
      rw [Nat.mul_zero, Nat.zero_add, List.getElem?_append_left (by omega), byteBits_getElem? a hj]
    | succ k =>
      rw [List.getElem?_append_right (by omega), hlen, ← ih (k := k) (by simpa using hb)]
      congr 1; omega

/-- The sentinel is fifteen 1s and a 0 (R95). -/
theorem sentinel_getElem? {j : Nat} (hj : j < 16) : sentinel[j]? = some (decide (j ≤ 14)) := by
  interval_cases j <;> rfl

/-- The length law (R142). -/
theorem length_frame (t : List Byte) : (frame t).length = 8 * t.length + 16 := by
  rw [frame, List.length_append, length_flatMap_byteBits]; rfl

/-- The payload's part of a frame (R141). -/
theorem frame_getElem?_payload {t : List Byte} {k j : Nat} {b : Byte} (hb : t[k]? = some b) (hj : j < 8) :
    (frame t)[8 * k + j]? = some (b.getLsbD (7 - j)) := by
  have hk : k < t.length := (List.getElem?_eq_some_iff.mp hb).1
  rw [frame, List.getElem?_append_left (by rw [length_flatMap_byteBits]; omega), flatMap_byteBits_getElem? hb hj]

/-- The sentinel's part of a frame (R141). -/
theorem frame_getElem?_sentinel (t : List Byte) {j : Nat} (hj : j < 16) :
    (frame t)[8 * t.length + j]? = some (decide (j ≤ 14)) := by
  rw [frame, List.getElem?_append_right (by rw [length_flatMap_byteBits]; omega), length_flatMap_byteBits,
    Nat.add_sub_cancel_left, sentinel_getElem? hj]

/-- A frame is the bits of the payload and the marker 0xFF, 0xFE (R141, R144). -/
theorem frame_eq_flatMap_marker (t : List Byte) : frame t = (t ++ [0xFF#8, 0xFE#8]).flatMap byteBits := by
  rw [List.flatMap_append]; rfl

/-! ### FRAMEBIT -/

/-- FRAMEBIT below the payload's end reads one listed byte of PAY (R143). -/
theorem frameBit_payload {i : Nat} {b : Byte} {s : State} (hi : i < s.nbits) (hpay : i < 8 * s.lenL)
    (hc : capCovers s.par.capPay s.lenL = true) (hb : memGet s.pay (i / 8) = some b) :
    frameBit i s = .ok (b.getLsbD (7 - i % 8), s) := by
  have hread : readByte .pay (i / 8) s = .ok (b, s) := readByte_listed (capCovers_mono hc (by omega)) hb
  rw [frameBit, if_neg (by omega), if_pos hpay, hread]

/-- FRAMEBIT from the payload's end on is a sentinel bit and reads nothing (R143). -/
theorem frameBit_sentinel {i : Nat} {s : State} (hi : i < s.nbits) (hpay : 8 * s.lenL ≤ i) :
    frameBit i s = .ok (decide (i - 8 * s.lenL ≤ 14), s) := by
  rw [frameBit, if_neg (by omega), if_neg (by omega)]

/-- FRAMEBIT is the frame's bit: on latched operands, with the payload in PAY (R143). -/
theorem frameBit_eq_frame {s : State} {t : List Byte} {i : Nat} (hlen : s.lenL = t.length) (hn : s.nbits = 8 * s.lenL + 16)
    (hp : Holds s.pay t) (hc : capCovers s.par.capPay s.lenL = true) (hi : i < s.nbits) :
    ∃ b, (frame t)[i]? = some b ∧ frameBit i s = .ok (b, s) := by
  rcases Nat.lt_or_ge i (8 * s.lenL) with hpay | hpay
  · have hb : t[i / 8]? = some t[i / 8] := List.getElem?_eq_getElem (by omega)
    have hbit := frame_getElem?_payload hb (Nat.mod_lt i (by decide))
    rw [Nat.div_add_mod] at hbit
    exact ⟨_, hbit, frameBit_payload hi hpay hc (hp _ _ hb)⟩
  · have hbit := frame_getElem?_sentinel t (j := i - 8 * s.lenL) (by omega)
    rw [← hlen, Nat.add_sub_cancel' hpay] at hbit
    exact ⟨_, hbit, frameBit_sentinel hi hpay⟩

/-! ### The groups of a bitstream -/

/-- The group value of a byte's bits is the byte (R94, R97). -/
theorem groupValue_getLsbD (b : Byte) : groupValue (b.getLsbD 7) (b.getLsbD 6) (b.getLsbD 5) (b.getLsbD 4) (b.getLsbD 3)
    (b.getLsbD 2) (b.getLsbD 1) (b.getLsbD 0) = b := by
  revert b; decide

/-- Dropping `n` groups renumbers the ones that follow. -/
theorem groupAt_drop (bits : Bitstream) (n k : Nat) : groupAt (bits.drop (8 * n)) k = groupAt bits (n + k) := by
  simp [groupAt, Nat.mul_add, Nat.add_assoc]

/-- What follows a whole group leaves it as it is. -/
theorem groupAt_append (extra : Bitstream) {bits : Bitstream} {k : Nat} (hk : k < bits.length / 8) :
    groupAt (bits ++ extra) k = groupAt bits k := by
  have hget : ∀ j < 8, (bits ++ extra).getD (8 * k + j) false = bits.getD (8 * k + j) false :=
    fun j hj => List.getD_append _ _ _ _ (by omega)
  simp only [groupAt, hget, Nat.reduceLT]

/-- The groups of a byte sequence's bits are its bytes, whatever follows them. -/
theorem groupAt_flatMap_byteBits {t : List Byte} {k : Nat} {b : Byte} (hb : t[k]? = some b) (r : Bitstream) :
    groupAt (t.flatMap byteBits ++ r) k = b := by
  have hk : k < t.length := (List.getElem?_eq_some_iff.mp hb).1
  have hget : ∀ j < 8, (t.flatMap byteBits).getD (8 * k + j) false = b.getLsbD (7 - j) := fun j hj => by
    rw [List.getD_eq_getElem?_getD, flatMap_byteBits_getElem? hb hj, Option.getD_some]
  rw [groupAt_append r (by rw [length_flatMap_byteBits]; omega)]
  simp only [groupAt, hget, Nat.reduceLT, Nat.reduceSub, groupValue_getLsbD]

/-- The first `n` group values of a bitstream. -/
def firstGroups (bits : Bitstream) (n : Nat) : List Byte := (List.range n).map (groupAt bits)

theorem firstGroups_succ (bits : Bitstream) (n : Nat) : firstGroups bits (n + 1) = firstGroups bits n ++ [groupAt bits n] := by
  simp [firstGroups, List.range_succ]

/-- What follows the whole groups leaves the first of them as they are. -/
theorem firstGroups_append (extra : Bitstream) {bits : Bitstream} {n : Nat} (hn : n ≤ bits.length / 8) :
    firstGroups (bits ++ extra) n = firstGroups bits n :=
  List.map_congr_left fun _ hk => groupAt_append extra (by rw [List.mem_range] at hk; omega)

/-- The first groups of a byte sequence's bits are its first bytes. -/
theorem firstGroups_flatMap_byteBits {t : List Byte} {n : Nat} (hn : n ≤ t.length) (r : Bitstream) :
    firstGroups (t.flatMap byteBits ++ r) n = t.take n := by
  refine List.ext_getElem (by simp [firstGroups, hn]) fun k hk _ => ?_
  have hkn : k < n := by simpa [firstGroups] using hk
  have hgroup := groupAt_flatMap_byteBits (List.getElem?_eq_getElem (show k < t.length by omega)) r
  simpa [firstGroups] using hgroup

/-! ### UNFRAME -/

/-- Groups `k - 1` and `k` are the marker 0xFF, 0xFE (R146). -/
def PairEndsAt (bits : Bitstream) (k : Nat) : Prop :=
  1 ≤ k ∧ groupAt bits (k - 1) = 0xFF#8 ∧ groupAt bits k = 0xFE#8

/-- The first marker of a bitstream ends at its group `k` (R146). -/
structure FirstPairEndsAt (bits : Bitstream) (k : Nat) : Prop where
  whole : k < bits.length / 8
  pair : PairEndsAt bits k
  least : ∀ j < k, ¬PairEndsAt bits j

/-- No two groups in a row are the marker (R146). -/
def NoPair (bits : Bitstream) : Prop := ∀ k < bits.length / 8, ¬PairEndsAt bits k

/-- There is a first marker or there is none. -/
theorem firstPair_or_noPair (bits : Bitstream) : (∃ k, FirstPairEndsAt bits k) ∨ NoPair bits := by
  classical
  by_cases h : ∃ k, k < bits.length / 8 ∧ PairEndsAt bits k
  · obtain ⟨hwhole, hpair⟩ := Nat.find_spec h
    exact .inl ⟨_, hwhole, hpair, fun j hj hp => Nat.find_min h hj ⟨hj.trans hwhole, hp⟩⟩
  · exact .inr fun k hk hp => h ⟨k, hk, hp⟩

/-- What follows the whole groups leaves the markers among them as they are. -/
theorem pairEndsAt_append (extra : Bitstream) {bits : Bitstream} {k : Nat} (hk : k < bits.length / 8) :
    PairEndsAt (bits ++ extra) k ↔ PairEndsAt bits k := by
  rw [PairEndsAt, PairEndsAt, groupAt_append extra hk, groupAt_append extra (by omega)]

/-- Fewer than eight bits form no group (R145). -/
theorem unframeFrom_short (text : List Byte) {l : Bitstream} (hl : l.length < 8) : unframeFrom text l = none := by
  unfold unframeFrom
  split
  · simp only [List.length_cons] at hl
    omega
  · rfl

/-- UNFRAME takes one group (R144). -/
theorem unframeFrom_group (text : List Byte) {l : Bitstream} (hl : 8 ≤ l.length) :
    unframeFrom text l =
      if text.getLast? = some 0xFF#8 ∧ groupAt l 0 = 0xFE#8 then some text.dropLast
      else unframeFrom (text ++ [groupAt l 0]) (l.drop 8) := by
  match l, hl with
  | _ :: _ :: _ :: _ :: _ :: _ :: _ :: _ :: _, _ => rfl

/-- UNFRAME once it has taken the first `n` groups and found no marker. -/
def unframeAfter (bits : Bitstream) (n : Nat) : Option (List Byte) := unframeFrom (firstGroups bits n) (bits.drop (8 * n))

/-- The text built so far ends in 0xFF and group `n` is 0xFE exactly where the marker ends at `n`. -/
theorem getLast?_firstGroups_iff (bits : Bitstream) (n : Nat) :
    (firstGroups bits n).getLast? = some 0xFF#8 ∧ groupAt bits n = 0xFE#8 ↔ PairEndsAt bits n := by
  cases n with
  | zero => simp [firstGroups, PairEndsAt]
  | succ n => simp [firstGroups_succ, PairEndsAt]

/-- The marker ends at group `n`: UNFRAME stops and strips it (R144). -/
theorem unframeAfter_of_pair {bits : Bitstream} {n : Nat} (hn : n < bits.length / 8) (hp : PairEndsAt bits n) :
    unframeAfter bits n = some (firstGroups bits (n - 1)) := by
  rw [unframeAfter, unframeFrom_group _ (by rw [List.length_drop]; omega), groupAt_drop, Nat.add_zero,
    if_pos ((getLast?_firstGroups_iff bits n).mpr hp)]
  cases n with
  | zero => rfl
  | succ n => simp [firstGroups_succ]

/-- The marker does not end at group `n`: UNFRAME goes on (R144). -/
theorem unframeAfter_of_not_pair {bits : Bitstream} {n : Nat} (hn : n < bits.length / 8) (hp : ¬PairEndsAt bits n) :
    unframeAfter bits n = unframeAfter bits (n + 1) := by
  rw [unframeAfter, unframeFrom_group _ (by rw [List.length_drop]; omega), groupAt_drop, Nat.add_zero,
    if_neg (mt (getLast?_firstGroups_iff bits n).mp hp), ← firstGroups_succ, List.drop_drop]
  rfl

/-- UNFRAME goes past every group at which no marker ends. -/
theorem unframe_eq_unframeAfter {bits : Bitstream} {n : Nat} (hn : n ≤ bits.length / 8) (hp : ∀ k < n, ¬PairEndsAt bits k) :
    unframe bits = unframeAfter bits n := by
  induction n with
  | zero => rfl
  | succ n ih =>
    rw [ih (by omega) fun k hk => hp k (by omega), unframeAfter_of_not_pair (by omega) (hp n (by omega))]

/-- The first-match law: the groups before the first marker (R146). -/
theorem unframe_of_firstPair {bits : Bitstream} {k : Nat} (h : FirstPairEndsAt bits k) :
    unframe bits = some (firstGroups bits (k - 1)) := by
  rw [unframe_eq_unframeAfter h.whole.le h.least, unframeAfter_of_pair h.whole h.pair]

/-- The first-match law: NotFound where there is no marker (R146). -/
theorem unframe_of_noPair {bits : Bitstream} (h : NoPair bits) : unframe bits = none := by
  rw [unframe_eq_unframeAfter le_rfl h, unframeAfter, unframeFrom_short _ (by rw [List.length_drop]; omega)]

/-- Bits after the first marker are never examined (R145). -/
theorem unframe_append_of_firstPair (extra : Bitstream) {bits : Bitstream} {k : Nat} (h : FirstPairEndsAt bits k) :
    unframe (bits ++ extra) = unframe bits := by
  have hk := h.whole
  have happend : FirstPairEndsAt (bits ++ extra) k :=
    { whole := by rw [List.length_append]; omega
      pair := (pairEndsAt_append extra hk).mpr h.pair
      least := fun j hj => mt (pairEndsAt_append extra (by omega)).mp (h.least j hj) }
  rw [unframe_of_firstPair happend, unframe_of_firstPair h, firstGroups_append extra (by omega)]

/-! ### UNFRAME of a byte sequence's bits -/

/-- A marker ends where a byte 0xFE follows a byte 0xFF. -/
theorem pairEndsAt_flatMap_byteBits {l : List Byte} {i : Nat} (hi : i + 1 < l.length) (r : Bitstream) :
    PairEndsAt (l.flatMap byteBits ++ r) (i + 1) ↔ l[i]? = some 0xFF#8 ∧ l[i + 1]? = some 0xFE#8 := by
  have h0 : l[i]? = some l[i] := List.getElem?_eq_getElem (by omega)
  have h1 : l[i + 1]? = some l[i + 1] := List.getElem?_eq_getElem hi
  simp only [PairEndsAt, Nat.add_sub_cancel, groupAt_flatMap_byteBits h0, groupAt_flatMap_byteBits h1, h0, h1,
    Option.some.injEq, Nat.le_add_left, true_and]

/-- UNFRAME of a byte sequence's bits is the sequence cut at its first pair 0xFF, 0xFE, whatever follows (R147). -/
theorem unframe_flatMap_byteBits {l : List Byte} {i : Nat} (h : FirstCollision l i) (r : Bitstream) :
    unframe (l.flatMap byteBits ++ r) = some (l.take i) := by
  obtain ⟨hff, hfe, hleast⟩ := h
  have hi : i + 1 < l.length := (List.getElem?_eq_some_iff.mp hfe).1
  have hfirst : FirstPairEndsAt (l.flatMap byteBits ++ r) (i + 1) :=
    { whole := by rw [List.length_append, length_flatMap_byteBits]; omega
      pair := (pairEndsAt_flatMap_byteBits hi r).mpr ⟨hff, hfe⟩
      least := fun j hj hp => by
        obtain ⟨j, rfl⟩ := Nat.exists_eq_add_of_le' hp.1
        exact hleast j (by omega) ((pairEndsAt_flatMap_byteBits (by omega) r).mp hp) }
  rw [unframe_of_firstPair hfirst, Nat.add_sub_cancel, firstGroups_flatMap_byteBits (by omega)]

/-- A marker after a payload that holds no pair is the first pair: none straddles the payload's end (R147). -/
theorem firstCollision_marker {t : List Byte} (h : NoCollision t) : FirstCollision (t ++ [0xFF#8, 0xFE#8]) t.length := by
  refine ⟨by simp, by simp, fun j hj ⟨hff, hfe⟩ => ?_⟩
  rw [List.getElem?_append_left hj] at hff
  rcases Nat.lt_or_ge (j + 1) t.length with hlt | hge
  · exact h j ⟨hff, by rwa [List.getElem?_append_left hlt] at hfe⟩
  · have hend : j + 1 = t.length := by omega
    simp [hend] at hfe

/-- What follows a payload leaves its first pair the first (R147). -/
theorem firstCollision_append {t : List Byte} {i : Nat} (h : FirstCollision t i) (u : List Byte) : FirstCollision (t ++ u) i := by
  obtain ⟨hff, hfe, hleast⟩ := h
  have hi : i + 1 < t.length := (List.getElem?_eq_some_iff.mp hfe).1
  have hget : ∀ j ≤ i + 1, (t ++ u)[j]? = t[j]? := fun j hj => List.getElem?_append_left (by omega)
  refine ⟨by rwa [hget i (by omega)], by rwa [hget (i + 1) le_rfl], fun j hj => ?_⟩
  rw [hget j (by omega), hget (j + 1) (by omega)]
  exact hleast j hj

end Sys2Proof.Machine
end

section
/-! The statements of spec/41_payload_framer.md. -/

namespace Sys2Proof.Proofs

open Machine

/-- Settles O28: the frame is the bits of the payload and the marker, which are cut at the first pair: the marker itself, or an
earlier one in the payload. -/
theorem framingRoundTrip : Obligations.FramingRoundTrip := by
  intro t r
  rw [frame_eq_flatMap_marker]
  refine ⟨fun hno => ?_, fun i hi => ?_⟩
  · rw [unframe_flatMap_byteBits (firstCollision_marker hno), List.take_left]
  · have hlt : i < t.length := (List.getElem?_eq_some_iff.mp hi.1).1
    rw [unframe_flatMap_byteBits (firstCollision_append hi _), List.take_append_of_le_length hlt.le]

/-- Settles O24: the length law, and the bits of the frame's two parts. -/
theorem frameLaysOutPayloadThenSentinel : Obligations.FrameLaysOutPayloadThenSentinel := by
  intro s t
  refine ⟨frame t, rfl, length_frame t, fun k j b => frame_getElem?_payload, fun j hj => ?_, ?_⟩
  · rw [frame_getElem?_sentinel t (by omega), decide_eq_true (by omega)]
  · exact frame_getElem?_sentinel t (by decide)

/-- Settles O25: FRAMEBIT answers the frame's bit and draws nothing. -/
theorem framebitIsTheBitOfTheFrame : Obligations.FramebitIsTheBitOfTheFrame := by
  intro s t i hlen hn hp hc hi
  obtain ⟨b, hbit, hframeBit⟩ := frameBit_eq_frame hlen hn hp hc hi
  refine ⟨b, hbit, ?_⟩
  show execFramebit i s = _
  rw [execFramebit, hframeBit]
  rfl

/-- Settles O26: both clauses are the first-match law, the premises saying where the first marker ends or that there is none. -/
theorem unframeStopsAtTheFirstSentinelPair : Obligations.UnframeStopsAtTheFirstSentinelPair := by
  intro s bits
  have hexec {x : Option (List Byte)} (h : unframe bits = x) : exec (.unframe bits) s = .next { s with answer := .text x } := by
    subst h; rfl
  refine ⟨fun k hk hwhole hff hfe hleast => hexec (unframe_of_firstPair ⟨hwhole, ⟨hk, hff, hfe⟩, ?_⟩), fun hno => ?_⟩
  · exact fun j hj ⟨hj1, hpair⟩ => hleast j hj1 hj hpair
  · exact hexec (unframe_of_noPair fun k hk ⟨hk1, hpair⟩ => hno k hk1 hk hpair)

/-- Settles O27: the markers end among the whole groups, which what follows them leaves as they are. -/
theorem unframeIgnoresWhatFormsNoGroup : Obligations.UnframeIgnoresWhatFormsNoGroup := by
  intro bits extra
  refine ⟨fun hshort => unframe_of_noPair fun k hk hp => ?_, fun hwhole hextra => ?_, fun t ht => ?_⟩
  · have := hp.1
    omega
  · rcases firstPair_or_noPair bits with ⟨k, hk⟩ | hno
    · exact unframe_append_of_firstPair extra hk
    · have hgroups : (bits ++ extra).length / 8 = bits.length / 8 := by rw [List.length_append]; omega
      have hnoAppend : NoPair (bits ++ extra) := fun k hk =>
        mt (pairEndsAt_append extra (hgroups ▸ hk)).mp (hno k (hgroups ▸ hk))
      rw [unframe_of_noPair hnoAppend, unframe_of_noPair hno]
  · rcases firstPair_or_noPair bits with ⟨k, hk⟩ | hno
    · rw [unframe_append_of_firstPair extra hk, ht]
    · rw [unframe_of_noPair hno] at ht
      cases ht

end Sys2Proof.Proofs
end

section
/-! SUPPORT. ENCODE (spec/42_encoder.md): its validation, one pixel of the pass, the pass over any memories and over a written
carrier and payload, and the whole command. -/

namespace Sys2Proof.Machine

/-! ### Validation -/

section
variable {s : State}

/-- A zero length or dimension is InvalidInput (R161). -/
theorem encodeVerdict_invalid (h : s.lenL = 0 ∨ s.wL = 0 ∨ s.hL = 0) : encodeVerdict s = some .invalidInput := if_pos h

/-- A frame longer than the grid is CapacityExceeded, where the operands are no InvalidInput (R162, R226). -/
theorem encodeVerdict_exceeded (h : ¬(s.lenL = 0 ∨ s.wL = 0 ∨ s.hL = 0)) (hn : s.npix < s.nbits) :
    encodeVerdict s = some .capacityExceeded := by
  rw [encodeVerdict, if_neg h, if_pos hn]

/-- A frame that fits passes, at equality too (R162). -/
theorem encodeVerdict_valid (h : ¬(s.lenL = 0 ∨ s.wL = 0 ∨ s.hL = 0)) (hn : s.nbits ≤ s.npix) : encodeVerdict s = none := by
  rw [encodeVerdict, if_neg h, if_neg (Nat.not_lt.mpr hn)]

/-- ENC_CHECK where it is enabled raises the verdict's error (R166). -/
theorem execEncCheck_raises {e : ErrorKind} (hphase : s.phase = 0b01#2) (hmode : s.mode = 0#1) (h : encodeVerdict s = some e) :
    execEncCheck s = .next (raiseError e s) := by
  rw [execEncCheck, if_pos ⟨hphase, hmode⟩, h]

/-- ENC_CHECK where it is enabled and the operands are valid goes to RUN (R166). -/
theorem execEncCheck_passes (hphase : s.phase = 0b01#2) (hmode : s.mode = 0#1) (h : encodeVerdict s = none) :
    execEncCheck s = .next { s with phase := 0b10#2 } := by
  rw [execEncCheck, if_pos ⟨hphase, hmode⟩, h]

/-- ENC_STEP's pixel arm where it is enabled and the pixel is embedded (R167). -/
theorem execEncStepPixel_enabled {t : State} (hphase : s.phase = 0b10#2) (hmode : s.mode = 0#1) (hidx : s.idx < s.npix)
    (h : encodePixel s.idx s = .ok t) : execEncStepPixel s = .next (advance t) := by
  rw [execEncStepPixel, if_pos ⟨hphase, hmode, hidx⟩, h]

/-- ENC_STEP's end arm where it is enabled (R168). -/
theorem execEncStepEnd_enabled (hphase : s.phase = 0b10#2) (hmode : s.mode = 0#1) (hidx : s.idx = s.npix) :
    execEncStepEnd s = .next (completeOk s) :=
  if_pos ⟨hphase, hmode, hidx⟩

end

/-! ### STATUS at the end of a command -/

/-- STATUS after `raise` (spec/60_exceptions.md R224). -/
@[simp] theorem statusWord_raiseError (e : ErrorKind) (s : State) : statusWord (raiseError e s) = errCode e ++ 0b10#2 := by
  cases e <;> simp [statusWord, busyBit, errCode]

/-- STATUS after `complete(OK)` (spec/60_exceptions.md R225). -/
@[simp] theorem statusWord_completeOk (s : State) : statusWord (completeOk s) = 0b0010#4 := by
  simp [statusWord, busyBit]

/-- A state agrees with itself on everything but the working registers. -/
theorem sameButWorking_refl (s : State) : SameButWorking s s := by constructor <;> rfl

/-! ### One pixel -/

section
variable {s : State} {i : Nat} {p : Pixel}

/-- MemWrite of a pixel within the capacity. -/
theorem writePixel_covered {S : PixelSpace} (hc : capCovers s.par.capPix (i + 1) = true) :
    writePixel S i p s = .ok (setPixel S i p s) := if_pos hc

/-- The pixel arm from NBITS on: the carrier pixel passes (R127, R167). -/
theorem encodePixel_pass (hn : s.nbits ≤ i) (hc : capCovers s.par.capPix (i + 1) = true) (hp : memGet s.pixin i = some p) :
    encodePixel i s = .ok (setPixel .pixout i p s) := by
  simp only [encodePixel, readPixel_listed (S := .pixin) hc hp, writePixel_covered hc, if_neg (Nat.not_lt.mpr hn)]

/-- The pixel arm below NBITS: the frame's bit is written into the carrier pixel (R167). -/
theorem encodePixel_embed {b : Bool} (hn : i < s.nbits) (hc : capCovers s.par.capPix (i + 1) = true)
    (hp : memGet s.pixin i = some p) (hb : frameBit i s = .ok (b, s)) :
    encodePixel i s = .ok (setPixel .pixout i (writeBit p b) s) := by
  simp only [encodePixel, readPixel_listed (S := .pixin) hc hp, if_pos hn, hb, writePixel_covered hc]

/-- FRAMEBIT below the payload's end, where PAY has and lists the byte it reads (R143). -/
theorem frameBit_of_byte {b : Byte} (hn : i < s.nbits) (hpay : i < 8 * s.lenL) (hc : capCovers s.par.capPay (i / 8 + 1) = true)
    (hb : memGet s.pay (i / 8) = some b) : frameBit i s = .ok (b.getLsbD (7 - i % 8), s) := by
  rw [frameBit, if_neg (by omega), if_pos hpay, readByte_listed (S := .pay) hc hb]

/-- One pixel is embedded wherever the memories have the elements it needs, whatever they hold (R71). -/
theorem encodePixel_total (hpix : capCovers s.par.capPix (i + 1) = true) (hpay : capCovers s.par.capPay s.lenL = true) :
    ∃ t, encodePixel i s = .ok t := by
  obtain ⟨p, s1, hread⟩ := readPixel_total .pixin hpix
  have hread1 := readPixel_frame hread
  by_cases hn : i < s.nbits
  · obtain ⟨b, s2, hbit⟩ := frameBit_total i (s := s1) (by rw [hread1]; exact hpay)
    have hpix2 : capCovers s2.par.capPix (i + 1) = true := by rw [frameBit_frame hbit, hread1]; exact hpix
    exact ⟨setPixel .pixout i (writeBit p b) s2, by simp only [encodePixel, hread, if_pos hn, hbit, writePixel_covered hpix2]⟩
  · have hpix1 : capCovers s1.par.capPix (i + 1) = true := by rw [hread1]; exact hpix
    exact ⟨setPixel .pixout i p s1, by simp only [encodePixel, hread, if_neg hn, writePixel_covered hpix1]⟩

/-- One pixel of ENCODE writes PIXOUT and draws, nothing else (R167). -/
theorem encodePixel_frame {t : State} (h : encodePixel i s = .ok t) : t = { s with pixout := t.pixout, draws := t.draws } := by
  obtain ⟨_, q, _, _, ht, _⟩ := encodePixel_cases h
  rw [ht]; rfl

end

/-! ### The pass -/

/-- The pass goes through wherever the memories cover it, whatever they hold (R71). -/
theorem encodePass_total {n : Nat} : ∀ {i : Nat} {s : State}, capCovers s.par.capPix (i + n) = true →
    capCovers s.par.capPay s.lenL = true → ∃ t, encodePass n i s = .ok t := by
  induction n with
  | zero => intro i s _ _; exact ⟨s, rfl⟩
  | succ n ih =>
    intro i s hpix hpay
    obtain ⟨s1, hs1⟩ := encodePixel_total (i := i) (capCovers_mono hpix (by omega)) hpay
    have hframe := encodePixel_frame hs1
    obtain ⟨t, ht⟩ : ∃ t, encodePass n (i + 1) s1 = .ok t :=
      ih (by rw [hframe, Nat.add_right_comm]; exact hpix) (by rw [hframe]; exact hpay)
    exact ⟨t, by simp only [encodePass, hs1, ht]⟩

/-- The latched operands of an ENCODE with the payload `t` written in PAY and the carrier `g` in PIXIN (R160, R254). -/
structure CarrierLoaded (s : State) (t : List Byte) (g : List Pixel) : Prop where
  lenL : s.lenL = t.length
  nbits : s.nbits = 8 * s.lenL + 16
  pay : Holds s.pay t
  payCap : capCovers s.par.capPay s.lenL = true
  pixin : Holds s.pixin g
  pixinCap : capCovers s.par.capPix g.length = true

/-- Carrier pixel `i` with its bit of the frame `f` in `R[0]`, or as it is where the frame has ended (R163). -/
def embedBit (f : Bitstream) (i : Nat) (p : Pixel) : Pixel :=
  match f[i]? with
  | some b => writeBit p b
  | none => p

theorem embedBit_of_bit {f : Bitstream} {i : Nat} {b : Bool} (h : f[i]? = some b) (p : Pixel) : embedBit f i p = writeBit p b := by
  rw [embedBit, h]

theorem embedBit_of_end {f : Bitstream} {i : Nat} (h : f.length ≤ i) (p : Pixel) : embedBit f i p = p := by
  rw [embedBit, List.getElem?_eq_none h]

/-- `embedBit` meets R163 bit by bit. -/
theorem embeddedPixel_embedBit (f : Bitstream) (i : Nat) (p : Pixel) : EmbeddedPixel f i p (embedBit f i p) := by
  rcases Nat.lt_or_ge i f.length with hi | hi
  · have hbit : f[i]? = some f[i] := List.getElem?_eq_getElem hi
    rw [embedBit_of_bit hbit]
    exact
      { g := rfl, b := rfl, x := rfl
        high := fun j hj => by rw [writeBit_r_getLsbD, if_neg (by omega)]
        carried := fun _ => by rw [writeBit_r_getLsbD, if_pos rfl, hbit]
        kept := fun hend => absurd hi (Nat.not_lt.mpr hend) }
  · rw [embedBit_of_end hi]
    exact ⟨rfl, rfl, rfl, fun _ _ => rfl, fun hlt => absurd hlt (Nat.not_lt.mpr hi), fun _ => rfl⟩

section
variable {t : List Byte} {g : List Pixel}

/-- One pixel of the pass over a written carrier and payload (R163). -/
theorem encodePixel_loaded {s : State} (h : CarrierLoaded s t g) {i : Nat} {p : Pixel} (hp : g[i]? = some p) :
    encodePixel i s = .ok (setPixel .pixout i (embedBit (frame t) i p) s) := by
  have hi : i < g.length := (List.getElem?_eq_some_iff.mp hp).1
  have hc : capCovers s.par.capPix (i + 1) = true := capCovers_mono h.pixinCap hi
  have hlen : (frame t).length = s.nbits := by rw [length_frame, h.nbits, h.lenL]
  rcases Nat.lt_or_ge i s.nbits with hn | hn
  · obtain ⟨b, hbit, hframeBit⟩ := frameBit_eq_frame h.lenL h.nbits h.pay h.payCap hn
    rw [encodePixel_embed hn hc (h.pixin _ _ hp) hframeBit, embedBit_of_bit hbit]
  · rw [encodePixel_pass hn hc (h.pixin _ _ hp), embedBit_of_end (hlen ▸ hn)]

/-- Writing PIXOUT leaves the operands loaded. -/
theorem CarrierLoaded.setPixout {s : State} (h : CarrierLoaded s t g) (i : Nat) (q : Pixel) :
    CarrierLoaded (setPixel .pixout i q s) t g :=
  ⟨h.lenL, h.nbits, h.pay, h.payCap, h.pixin, h.pixinCap⟩

/-- The pass over a written carrier and payload: PIXOUT gets the embedded pixels of its range and nothing else changes (R163). -/
theorem encodePass_loaded {n : Nat} : ∀ {i : Nat} {s : State}, CarrierLoaded s t g → i + n ≤ g.length →
    ∃ m, encodePass n i s = .ok { s with pixout := m } ∧
      (∀ k p, i ≤ k → k < i + n → g[k]? = some p → memGet m k = some (embedBit (frame t) k p)) ∧
      (∀ k, k < i ∨ i + n ≤ k → memGet m k = memGet s.pixout k) := by
  induction n with
  | zero => intro i s _ _; exact ⟨s.pixout, rfl, fun k p hik hki => by omega, fun k _ => rfl⟩
  | succ n ih =>
    intro i s h hn
    have hp : g[i]? = some g[i] := List.getElem?_eq_getElem (by omega)
    obtain ⟨m, hpass, hwritten, hkept⟩ := ih (i := i + 1) (h.setPixout i (embedBit (frame t) i g[i])) (by omega)
    refine ⟨m, by simp only [encodePass, encodePixel_loaded h hp, hpass]; rfl, fun k p hik hki hk => ?_, fun k hk => ?_⟩
    · rcases Nat.eq_or_lt_of_le hik with rfl | hlt
      · obtain rfl : g[i] = p := Option.some.inj (hp.symm.trans hk)
        rw [hkept i (by omega), setPixel_pixout_pixout, memGet_memSet_same]
      · exact hwritten k p hlt (by omega) hk
    · rw [hkept k (by omega), setPixel_pixout_pixout, memGet_memSet_other _ _ (by omega)]

end

/-! ### The whole command -/

section
variable {s : State}

/-- ENCODE's index ranges: the grid in the pixel memories, the payload in PAY (R71). -/
theorem capacitiesCover_encode : capacitiesCover 0#1 s = true ↔
    capCovers s.par.capPix (s.width * s.height) = true ∧ capCovers s.par.capPay s.len = true := by
  simp [capacitiesCover]

/-- ENCODE raises the verdict's error and touches no memory (R161, R162). -/
theorem runEncode_raises {e : ErrorKind} (h : encodeVerdict s = some e) : runEncode s = .ok (raiseError e s) := by
  rw [runEncode, h]

/-- ENCODE of valid operands completes after the pass (R160). -/
theorem runEncode_passes {t : State} (h : encodeVerdict s = none) (hpass : encodePass s.npix 0 s = .ok t) :
    runEncode s = .ok (completeOk t) := by
  simp only [runEncode, h, hpass]

variable (idle : s.phase = 0b00#2) (hcap : capacitiesCover 0#1 s = true)
include idle hcap

/-- ENCODE on an idle block whose memories suffice latches its operands and runs (R160, R203). -/
theorem execEncode_idle {t : State} (h : runEncode (latch 0#1 s) = .ok t) : exec .encode s = .next t := by
  show execEncode s = _
  rw [execEncode, if_neg (not_not.mpr idle), if_pos hcap, h]
  rfl

/-- START of ENCODE on an idle block whose memories suffice latches its operands (R203). -/
theorem execStart_encode_idle : exec (.start 0b01#2) s = .next (latch 0#1 s) := by
  show startCommand 0#1 s = _
  rw [startCommand, if_neg (not_not.mpr idle), if_pos hcap]

omit idle in
/-- The pass of an ENCODE goes through on the operands START latched. -/
theorem encodePass_latched : ∃ t, encodePass (latch 0#1 s).npix 0 (latch 0#1 s) = .ok t := by
  obtain ⟨hpix, hpay⟩ := capacitiesCover_encode.mp hcap
  exact encodePass_total (by simpa using hpix) hpay

end

end Sys2Proof.Machine
end

section
/-! The statements of spec/42_encoder.md on ENCODE and its engine steps. -/

namespace Sys2Proof.Proofs

open Machine

/-- Settles O29: the operands are loaded once they are latched, and the pass over a loaded carrier embeds the frame pixel by
pixel. -/
theorem encodeEmbedsTheFrame : Obligations.EncodeEmbedsTheFrame := by
  intro s t g idle hcap hlen hpay hgrid hpixin hne hw hh hfit
  obtain ⟨hpixCap, hpayCap⟩ := capacitiesCover_encode.mp hcap
  have hload : CarrierLoaded (latch 0#1 s) t g := ⟨hlen, rfl, hpay, hpayCap, hpixin, hgrid ▸ hpixCap⟩
  have hlen0 : s.len ≠ 0 := by rwa [hlen, ne_eq, List.length_eq_zero_iff]
  have hvalid : encodeVerdict (latch 0#1 s) = none := encodeVerdict_valid (by simp [hlen0, hw, hh]) hfit
  obtain ⟨m, hpass, hwritten, hkept⟩ := encodePass_loaded (i := 0) (n := s.width * s.height) hload (by omega)
  refine ⟨_, execEncode_idle idle hcap (runEncode_passes hvalid hpass), statusWord_completeOk _, rfl,
    ⟨rfl, rfl, rfl, rfl, rfl, rfl⟩, ⟨rfl, rfl⟩, rfl, rfl, rfl, fun i p hp => ?_, fun i hi => hkept i (by omega)⟩
  have hi : i < g.length := (List.getElem?_eq_some_iff.mp hp).1
  obtain ⟨hg, hb, hx, hhigh, hcarried, hend⟩ := embeddedPixel_embedBit (frame t) i p
  rw [length_frame, ← hlen] at hcarried hend
  exact ⟨_, hwritten i p (by omega) (by omega) hp, hg, hb, hx, hhigh, hcarried, hend⟩

/-- Settles O30: the verdict on the latched operands decides; an error writes STATUS alone, and the pass that follows no error goes
through and writes PIXOUT alone. -/
theorem encodeReportsExactlyOneOutcome : Obligations.EncodeReportsExactlyOneOutcome := by
  intro s idle hcap
  have raised {e : ErrorKind} (h : encodeVerdict (latch 0#1 s) = some e) :
      exec .encode s = .next (raiseError e (latch 0#1 s)) := execEncode_idle idle hcap (runEncode_raises h)
  by_cases hzero : s.len = 0 ∨ s.width = 0 ∨ s.height = 0
  · refine ⟨_, raised (encodeVerdict_invalid hzero), rfl, ⟨rfl, rfl, rfl, rfl, rfl, rfl⟩, ⟨rfl, rfl⟩, rfl, rfl,
      fun _ => ⟨statusWord_raiseError _ _, rfl, rfl⟩, fun hl hw hh => ?_, fun hl hw hh => ?_⟩
    all_goals exact absurd hzero (by simp [hl, hw, hh])
  rcases Nat.lt_or_ge (s.width * s.height) (8 * s.len + 16) with hover | hfit
  · exact ⟨_, raised (encodeVerdict_exceeded hzero hover), rfl, ⟨rfl, rfl, rfl, rfl, rfl, rfl⟩, ⟨rfl, rfl⟩, rfl, rfl,
      fun h => absurd h hzero, fun _ _ _ _ => ⟨statusWord_raiseError _ _, rfl, rfl⟩,
      fun _ _ _ h => absurd hover (Nat.not_lt.mpr h)⟩
  · obtain ⟨t, hpass⟩ := encodePass_latched hcap
    have hframe := encodePass_frame hpass
    refine ⟨_, execEncode_idle idle hcap (runEncode_passes (encodeVerdict_valid hzero hfit) hpass), ?_⟩
    rw [hframe]
    exact ⟨rfl, ⟨rfl, rfl, rfl, rfl, rfl, rfl⟩, ⟨rfl, rfl⟩, rfl, rfl, fun h => absurd h hzero,
      fun _ _ _ h => absurd h (Nat.not_lt.mpr hfit), fun _ _ _ _ => statusWord_completeOk _⟩

/-- Settles O32: each of the three sources gives the pixel that is set in PIXOUT, and NEXT follows. -/
theorem encStepWritesOnePixel : Obligations.EncStepWritesOnePixel := by
  intro s p q hphase hmode hidx hp hc hq
  have hpixel : encodePixel s.idx s = .ok (setPixel .pixout s.idx q s) := by
    rcases hq with ⟨hn, rfl⟩ | ⟨hn, hlt, hpay, b, hb, rfl⟩ | ⟨hn, hge, rfl⟩
    · exact encodePixel_pass hn hc hp
    · exact encodePixel_embed hn hc hp (frameBit_of_byte hn hlt hpay hb)
    · exact encodePixel_embed hn hc hp (frameBit_sentinel hn hge)
  exact ⟨_, execEncStepPixel_enabled hphase hmode hidx hpixel, fun j => memGet_memSet _ _ _ _, rfl⟩

/-- Settles O31: ENC_CHECK follows the verdict. -/
theorem encCheckValidates : Obligations.EncCheckValidates := by
  intro s hphase hmode
  by_cases hzero : s.lenL = 0 ∨ s.wL = 0 ∨ s.hL = 0
  · refine ⟨_, execEncCheck_raises hphase hmode (encodeVerdict_invalid hzero), ?_⟩
    rw [if_pos hzero]; exact sameButWorking_refl _
  rcases Nat.lt_or_ge s.npix s.nbits with hover | hfit
  · refine ⟨_, execEncCheck_raises hphase hmode (encodeVerdict_exceeded hzero hover), ?_⟩
    rw [if_neg hzero, if_pos hover]; exact sameButWorking_refl _
  · refine ⟨_, execEncCheck_passes hphase hmode (encodeVerdict_valid hzero hfit), ?_⟩
    rw [if_neg hzero, if_neg (Nat.not_lt.mpr hfit)]; rfl

/-- Settles O33: the end arm is `complete(OK)`. -/
theorem encStepEndCompletes : Obligations.EncStepEndCompletes := by
  intro s hphase hmode hidx
  exact ⟨_, execEncStepEnd_enabled hphase hmode hidx, sameButWorking_refl _⟩

end Sys2Proof.Proofs
end

section
/-! SUPPORT. The engine's turns (spec/42_encoder.md R165 to R170, spec/43_decoder.md R185 to R190): a turn as the operation R103
selects, that a ready engine has one and how far it brings the command, and ENCODE's turns against its whole pass. -/

namespace Sys2Proof.Machine

/-! ### The engine's turn -/

/-- The engine takes the step its dispatch word selects, if any (spec/30_encoding.md R103). -/
def engineTurn (s : State) : Host.Outcome State Fault Refusal := perform (fetchEngine s) s

/-- With nothing scheduled the engine moves (spec/70_reset_and_hazards.md R251). -/
theorem step_unscheduled {s : State} (h : s.moves = []) : step s = engineTurn s := by
  simp [step, takeMove, h, engineTurn]

/-- A scheduled turn of the engine is its turn on the state with that entry taken away: the dispatch does not read the schedule. -/
theorem step_scheduled {s : State} {ms : List Move} (h : s.moves = .engine :: ms) : step s = engineTurn (popMove s) := by
  simp only [step, takeMove, h, List.head?_cons]
  rfl

section
variable {s : State}

/-- An idle engine does nothing (R103, R251). -/
theorem engineTurn_idle (hphase : s.phase = 0b00#2) : engineTurn s = .next s := by
  rw [engineTurn, fetchEngine_eq_decodeStep, hphase, decodeStep_idle]
  rfl

/-- PHASE = CHECK, MODE = 0 (R103). -/
theorem engineTurn_encCheck (hphase : s.phase = 0b01#2) (hmode : s.mode = 0#1) : engineTurn s = execEncCheck s := by
  rw [engineTurn, fetchEngine_eq_decodeStep, hphase, hmode]
  rfl

/-- PHASE = CHECK, MODE = 1 (R103). -/
theorem engineTurn_decCheck (hphase : s.phase = 0b01#2) (hmode : s.mode = 1#1) : engineTurn s = execDecCheck s := by
  rw [engineTurn, fetchEngine_eq_decodeStep, hphase, hmode]
  rfl

/-- PHASE = RUN, MODE = 0, the pixel arm (R103). -/
theorem engineTurn_encStepPixel (hphase : s.phase = 0b10#2) (hmode : s.mode = 0#1) (hidx : s.idx < s.npix) :
    engineTurn s = execEncStepPixel s := by
  rw [engineTurn, fetchEngine_eq_decodeStep, hphase, hmode, armOf_of_lt hidx]
  rfl

/-- PHASE = RUN, MODE = 0, the end arm (R103). -/
theorem engineTurn_encStepEnd (hphase : s.phase = 0b10#2) (hmode : s.mode = 0#1) (hidx : s.idx = s.npix) :
    engineTurn s = execEncStepEnd s := by
  rw [engineTurn, fetchEngine_eq_decodeStep, hphase, hmode, armOf_of_eq hidx]
  rfl

/-- PHASE = RUN, MODE = 1, the pixel arm (R103). -/
theorem engineTurn_decStepPixel (hphase : s.phase = 0b10#2) (hmode : s.mode = 1#1) (hidx : s.idx < s.npix) :
    engineTurn s = execDecStepPixel s := by
  rw [engineTurn, fetchEngine_eq_decodeStep, hphase, hmode, armOf_of_lt hidx]
  rfl

/-- PHASE = RUN, MODE = 1, the end arm (R103). -/
theorem engineTurn_decStepEnd (hphase : s.phase = 0b10#2) (hmode : s.mode = 1#1) (hidx : s.idx = s.npix) :
    engineTurn s = execDecStepEnd s := by
  rw [engineTurn, fetchEngine_eq_decodeStep, hphase, hmode, armOf_of_eq hidx]
  rfl

end

/-! ### Runs of the engine alone -/

/-- A run whose first move is the engine's goes on from what its turn leaves. -/
theorem runSteps_turn {s t : State} (k : Nat) (hmoves : s.moves = []) (h : engineTurn s = .next t) :
    runSteps (k + 1) s = runSteps k t := by
  rw [runSteps, step_unscheduled hmoves, h]

/-- With nothing scheduled an idle block stays as it is (R251). -/
theorem runSteps_idle {s : State} (hphase : s.phase = 0b00#2) (hmoves : s.moves = []) (k : Nat) : runSteps k s = .next s := by
  induction k with
  | zero => rfl
  | succ k ih => rw [runSteps_turn k hmoves (engineTurn_idle hphase), ih]

/-! ### DEC_STEP's pixel -/

/-- DECODE's data path follows IDX: the bits of the group under way and the groups before it (R187). -/
def GroupsFollow (s : State) (i : Nat) : Prop := s.bitcnt.toNat = i % 8 ∧ s.ngrp = i / 8

section
variable {s t : State}

/-- GROUP_COMPLETE goes through where TXT has the group's element. -/
theorem groupComplete_total (v : Byte) (hc : capCovers s.par.capTxt (s.ngrp + 1) = true) : ∃ t, groupComplete v s = .ok t := by
  have hwrite : writeByte .txt s.ngrp v s = .ok (setByte .txt s.ngrp v s) := if_pos hc
  simp only [groupComplete, hwrite]
  split
  · exact ⟨_, rfl⟩
  · exact ⟨_, rfl⟩

/-- GROUP_COMPLETE leaves the schedule. -/
theorem groupComplete_moves {v : Byte} (h : groupComplete v s = .ok t) : t.moves = s.moves := by
  rcases groupComplete_cases h with ⟨-, rfl⟩ | ⟨-, rfl⟩
  · simp
  · simp

/-- DEC_STEP's pixel shifts a bit in, or completes a group with the eighth (R187). -/
theorem decodePixel_shift_or_group (h : decodePixel s = .ok t) : ∃ p n, readPixel .pixin s.idx s = .ok (p, { s with draws := n }) ∧
    ((s.bitcnt = 7#3 ∧ groupComplete (shiftIn s.shreg (readBit p)) { s with draws := n } = .ok t) ∨
      (s.bitcnt ≠ 7#3 ∧ t = { s with shreg := shiftIn s.shreg (readBit p), bitcnt := s.bitcnt + 1#3, draws := n })) := by
  unfold decodePixel at h
  split at h
  · cases h
  · rename_i p s1 hread
    have hs1 := readPixel_frame hread
    rw [hs1] at hread h
    refine ⟨p, s1.draws, hread, ?_⟩
    split at h
    · exact .inl ⟨‹_›, h⟩
    · cases h; exact .inr ⟨‹_›, rfl⟩

/-- DEC_STEP's pixel goes through where PIXIN has the pixel and TXT the element of a group that completes (R71). -/
theorem decodePixel_total (hpix : capCovers s.par.capPix (s.idx + 1) = true)
    (htxt : s.bitcnt = 7#3 → capCovers s.par.capTxt (s.ngrp + 1) = true) : ∃ t, decodePixel s = .ok t := by
  obtain ⟨p, s1, hread⟩ := readPixel_total .pixin hpix
  simp only [decodePixel, hread]
  split
  case isTrue hlast =>
    refine groupComplete_total _ ?_
    rw [readPixel_frame hread]
    exact htxt hlast
  case isFalse => exact ⟨_, rfl⟩

/-- DEC_STEP's pixel leaves the schedule. -/
theorem decodePixel_moves (h : decodePixel s = .ok t) : t.moves = s.moves := by
  obtain ⟨p, n, -, ⟨-, hgroup⟩ | ⟨-, rfl⟩⟩ := decodePixel_shift_or_group h
  · exact (groupComplete_moves hgroup :)
  · rfl

/-- Unless it completes the command, DEC_STEP's pixel brings the data path from IDX to IDX + 1 (R187, R188). -/
theorem decodePixel_groupsFollow (h : decodePixel s = .ok t) (hs : GroupsFollow s s.idx) :
    (t.phase = 0b00#2 ∧ t.done = 1#1) ∨ GroupsFollow t (s.idx + 1) := by
  obtain ⟨hbits, hgroups⟩ := hs
  obtain ⟨p, n, -, ⟨hlast, hgroup⟩ | ⟨hlast, rfl⟩⟩ := decodePixel_shift_or_group h
  · rw [hlast] at hbits
    have h7 : s.idx % 8 = 7 := hbits.symm
    rcases groupComplete_cases hgroup with ⟨-, rfl⟩ | ⟨-, rfl⟩
    · exact .inl ⟨rfl, rfl⟩
    · refine .inr ⟨?_, ?_⟩
      · show 0 = (s.idx + 1) % 8
        omega
      · show s.ngrp + 1 = (s.idx + 1) / 8
        omega
  · have h7 : s.idx % 8 ≠ 7 := fun h7 => hlast (BitVec.eq_of_toNat_eq (hbits.trans h7))
    refine .inr ⟨?_, ?_⟩
    · rw [BitVec.toNat_add, hbits]
      show (s.idx % 8 + 1) % 8 = (s.idx + 1) % 8
      omega
    · show s.ngrp = (s.idx + 1) / 8
      omega

/-- DEC_STEP's pixel arm where it is enabled and the pixel goes through: NEXT unless the command has completed (R187). -/
theorem execDecStepPixel_enabled (hphase : s.phase = 0b10#2) (hmode : s.mode = 1#1) (hidx : s.idx < s.npix)
    (h : decodePixel s = .ok t) : execDecStepPixel s = .next (if t.phase = 0b00#2 then t else advance t) := by
  rw [execDecStepPixel, if_pos ⟨hphase, hmode, hidx⟩]
  simp only [h]
  split <;> rfl

end

/-! ### A ready engine -/

/-- What a turn of the busy engine needs, and leaves for the next: PHASE is CHECK or RUN, IDX is in the grid, the memories cover the
command, and DECODE's counters follow IDX. -/
structure EngineReady (s : State) : Prop where
  busy : (s.phase = 0b01#2 ∧ s.idx = 0) ∨ s.phase = 0b10#2
  bound : s.idx ≤ s.npix
  capacities : CapacitiesHold s
  groups : s.mode = 1#1 → GroupsFollow s s.idx

/-- The turns a ready engine has left at most: the check, one per pixel and the end (R169, R190). -/
def turnsLeft (s : State) : Nat := if s.phase = 0b01#2 then s.npix + 2 else s.npix - s.idx + 1

/-- What a turn of a ready engine does to the command: it ends, or a ready engine has fewer turns left. -/
def TurnProgresses (s t : State) : Prop :=
  (t.phase = 0b00#2 ∧ t.done = 1#1) ∨ (EngineReady t ∧ turnsLeft t < turnsLeft s)

/-- While a command runs the invariant makes the engine ready. -/
theorem engineReady_of_inv {s : State} (h : Inv s) (busy : s.phase ≠ 0b00#2) : EngineReady s := by
  have hphase : s.phase = 0b01#2 ∨ s.phase = 0b10#2 := by
    have unreachable := h.phase
    generalize s.phase = p at busy unreachable
    revert p; decide
  rcases hphase with hcheck | hrun
  · obtain ⟨hidx, -, -, -, hbitcnt, -, hngrp⟩ := h.fresh hcheck
    exact ⟨.inl ⟨hcheck, hidx⟩, by omega, h.capacities busy, fun _ => by rw [GroupsFollow, hidx, hbitcnt, hngrp]; decide⟩
  · exact ⟨.inr hrun, (h.pass hrun).bound, h.capacities busy, fun hmode =>
      ⟨(h.progress hrun hmode).bitcnt, (h.progress hrun hmode).ngrp⟩⟩

section
variable {s : State} (ready : EngineReady s)
include ready

/-- A ready engine is ready whatever is scheduled. -/
theorem EngineReady.popMove : EngineReady (popMove s) := by
  obtain ⟨hbusy, hbound, ⟨hpix, hpay, htxt⟩, hgroups⟩ := ready
  exact ⟨hbusy, hbound, ⟨hpix, hpay, htxt⟩, hgroups⟩

/-- A check that passes leaves the engine ready in RUN, at the first pixel (R166, R186). -/
theorem turnProgresses_check (hphase : s.phase = 0b01#2) : TurnProgresses s { s with phase := 0b10#2 } := by
  obtain ⟨-, hbound, ⟨hpix, hpay, htxt⟩, hgroups⟩ := ready
  refine .inr ⟨⟨.inr rfl, hbound, ⟨hpix, hpay, htxt⟩, hgroups⟩, ?_⟩
  have hleft : turnsLeft s = s.npix + 2 := if_pos hphase
  have hleft' : turnsLeft { s with phase := 0b10#2 } = s.npix - s.idx + 1 := by simp [turnsLeft]
  omega

/-- NEXT leaves the engine ready at the pixel after (R167, R187). The pixel's work `u` keeps the operands, and what it does to the
data path brings that to IDX + 1. -/
theorem turnProgresses_advance {u : State} (hphase : s.phase = 0b10#2) (hidx : s.idx < s.npix) (hcontrol : u.control = s.control)
    (hpar : u.par = s.par) (huidx : u.idx = s.idx) (hgroups : s.mode = 1#1 → GroupsFollow u (s.idx + 1)) :
    TurnProgresses s (advance u) := by
  obtain ⟨-, -, -, huphase, humode, -, -, hulenL, hunpix, -⟩ := control_eq_iff.mp hcontrol
  have hrun : (advance u).phase = 0b10#2 := huphase.trans hphase
  have hnext : (advance u).idx = s.idx + 1 := congrArg (· + 1) huidx
  have hgrid : (advance u).npix = s.npix := hunpix
  refine .inr ⟨⟨.inr hrun, by omega, ⟨?_, fun hm => ?_, fun hm => ?_⟩, fun hm => ?_⟩, ?_⟩
  · rw [hgrid, advance_par, hpar]; exact ready.capacities.pix
  · rw [advance_par, advance_lenL, hpar, hulenL]; exact ready.capacities.pay (humode ▸ hm)
  · rw [hgrid, advance_par, hpar]; exact ready.capacities.txt (humode ▸ hm)
  · rw [hnext]; exact hgroups (humode ▸ hm)
  · have hleft : turnsLeft s = s.npix - s.idx + 1 := by simp [turnsLeft, hphase]
    have hleft' : turnsLeft (advance u) = (advance u).npix - (advance u).idx + 1 := by rw [turnsLeft, hrun]; rfl
    omega

/-- ENCODE's turn in CHECK (R166). -/
theorem encCheck_progresses (hphase : s.phase = 0b01#2) (hmode : s.mode = 0#1) :
    ∃ t, execEncCheck s = .next t ∧ t.moves = s.moves ∧ TurnProgresses s t := by
  cases hverdict : encodeVerdict s with
  | some e => exact ⟨_, execEncCheck_raises hphase hmode hverdict, rfl, .inl ⟨rfl, rfl⟩⟩
  | none => exact ⟨_, execEncCheck_passes hphase hmode hverdict, rfl, turnProgresses_check ready hphase⟩

/-- ENCODE's turn at a pixel (R167). -/
theorem encStepPixel_progresses (hphase : s.phase = 0b10#2) (hmode : s.mode = 0#1) (hidx : s.idx < s.npix) :
    ∃ t, execEncStepPixel s = .next t ∧ t.moves = s.moves ∧ TurnProgresses s t := by
  obtain ⟨u, hu⟩ := encodePixel_total (capCovers_mono ready.capacities.pix hidx) (ready.capacities.pay hmode)
  have hframe := encodePixel_frame hu
  refine ⟨_, execEncStepPixel_enabled hphase hmode hidx hu, (congrArg State.moves hframe :), ?_⟩
  exact turnProgresses_advance ready hphase hidx (congrArg State.control hframe :) (congrArg State.par hframe :)
    (congrArg State.idx hframe :) (fun hm => by simp [hmode] at hm)

/-- DECODE's turn at a pixel: a group that completes is one of the NPIX div 8 that TXT has room for (R187, R188). -/
theorem decStepPixel_progresses (hphase : s.phase = 0b10#2) (hmode : s.mode = 1#1) (hidx : s.idx < s.npix) :
    ∃ t, execDecStepPixel s = .next t ∧ t.moves = s.moves ∧ TurnProgresses s t := by
  have hgroups := ready.groups hmode
  have htxt (hlast : s.bitcnt = 7#3) : capCovers s.par.capTxt (s.ngrp + 1) = true := by
    refine capCovers_mono (ready.capacities.txt hmode) ?_
    obtain ⟨hbits, hngrp⟩ := hgroups
    rw [hlast] at hbits
    have h7 : s.idx % 8 = 7 := hbits.symm
    omega
  obtain ⟨u, hu⟩ := decodePixel_total (capCovers_mono ready.capacities.pix hidx) htxt
  have hmoves := decodePixel_moves hu
  refine ⟨_, execDecStepPixel_enabled hphase hmode hidx hu, ?_⟩
  split
  case isTrue hended =>
    refine ⟨hmoves, .inl ⟨hended, ?_⟩⟩
    rcases decodePixel_cases hu with ⟨-, hdone⟩ | hframe
    · exact hdone
    · rw [hframe] at hended
      simp [hphase] at hended
  case isFalse hruns =>
    rcases decodePixel_cases hu with ⟨hended, -⟩ | hframe
    · exact absurd hended hruns
    refine ⟨hmoves, turnProgresses_advance ready hphase hidx (congrArg State.control hframe :) (congrArg State.par hframe :)
      (congrArg State.idx hframe :) fun _ => ?_⟩
    exact (decodePixel_groupsFollow hu hgroups).resolve_left fun ⟨hended, _⟩ => hruns hended

/-- A ready engine has a turn, which leaves the schedule and brings the command on (R169, R190). -/
theorem engineTurn_progresses : ∃ t, engineTurn s = .next t ∧ t.moves = s.moves ∧ TurnProgresses s t := by
  rcases ready.busy with ⟨hphase, -⟩ | hphase <;> rcases BitVec.eq_zero_or_eq_one s.mode with hmode | hmode
  · rw [engineTurn_encCheck hphase hmode]
    exact encCheck_progresses ready hphase hmode
  · rw [engineTurn_decCheck hphase hmode, execDecCheck, if_pos ⟨hphase, hmode⟩]
    exact ⟨_, rfl, rfl, turnProgresses_check ready hphase⟩
  · rcases Nat.lt_or_eq_of_le ready.bound with hidx | hidx
    · rw [engineTurn_encStepPixel hphase hmode hidx]
      exact encStepPixel_progresses ready hphase hmode hidx
    · rw [engineTurn_encStepEnd hphase hmode hidx, execEncStepEnd_enabled hphase hmode hidx]
      exact ⟨_, rfl, rfl, .inl ⟨rfl, rfl⟩⟩
  · rcases Nat.lt_or_eq_of_le ready.bound with hidx | hidx
    · rw [engineTurn_decStepPixel hphase hmode hidx]
      exact decStepPixel_progresses ready hphase hmode hidx
    · rw [engineTurn_decStepEnd hphase hmode hidx, execDecStepEnd, if_pos ⟨hphase, hmode, hidx⟩]
      exact ⟨_, rfl, rfl, .inl ⟨rfl, rfl⟩⟩

end

/-- A ready engine left alone completes the command within the turns it has left. -/
theorem runSteps_completes {k : Nat} : ∀ {s : State}, EngineReady s → s.moves = [] → turnsLeft s ≤ k →
    ∃ t, runSteps k s = .next t ∧ t.phase = 0b00#2 ∧ t.done = 1#1 := by
  induction k with
  | zero =>
    intro s _ _ hk
    have hpos : 0 < turnsLeft s := by unfold turnsLeft; split <;> omega
    omega
  | succ k ih =>
    intro s ready hmoves hk
    obtain ⟨t, hturn, htmoves, hprogress⟩ := engineTurn_progresses ready
    rw [hmoves] at htmoves
    rw [runSteps_turn k hmoves hturn]
    rcases hprogress with ⟨hidle, hdone⟩ | ⟨hready, hfewer⟩
    · exact ⟨t, runSteps_idle hidle htmoves k, hidle, hdone⟩
    · exact ih hready htmoves (by omega)

/-! ### ENCODE's turns and its whole pass -/

/-- The state in RUN at index `i` and position `(x, y)`: what tells the engine's pass from the whole command's. -/
def runningAt (i x y : Nat) (s : State) : State := { s with phase := 0b10#2, idx := i, x := x, y := y }

section
variable (j x y : Nat) (s : State)

/-- MemRead of a pixel does not depend on PHASE and the position. -/
theorem readPixel_runningAt (S : PixelSpace) (i : Nat) :
    readPixel S i (runningAt j x y s) = (readPixel S i s).map fun r => (r.1, runningAt j x y r.2) := by
  have hmem : pixelMem S (runningAt j x y s) = pixelMem S s := by cases S <;> rfl
  have hpar : (runningAt j x y s).par = s.par := rfl
  unfold readPixel
  rw [hmem, hpar]
  split
  · cases memGet (pixelMem S s) i <;> rfl
  · rfl

/-- MemRead of a byte does not depend on PHASE and the position. -/
theorem readByte_runningAt (S : ByteSpace) (i : Nat) :
    readByte S i (runningAt j x y s) = (readByte S i s).map fun r => (r.1, runningAt j x y r.2) := by
  have hmem : byteMem S (runningAt j x y s) = byteMem S s := by cases S <;> rfl
  have hpar : (runningAt j x y s).par = s.par := rfl
  unfold readByte
  rw [hmem, hpar]
  split
  · cases memGet (byteMem S s) i <;> rfl
  · rfl

/-- FRAMEBIT does not depend on PHASE and the position. -/
theorem frameBit_runningAt (i : Nat) :
    frameBit i (runningAt j x y s) = (frameBit i s).map fun r => (r.1, runningAt j x y r.2) := by
  have hnbits : (runningAt j x y s).nbits = s.nbits := rfl
  have hlenL : (runningAt j x y s).lenL = s.lenL := rfl
  unfold frameBit
  rw [readByte_runningAt, hnbits, hlenL]
  split
  · rfl
  · split
    · cases readByte .pay (i / 8) s <;> rfl
    · rfl

/-- MemWrite of a pixel leaves PHASE and the position. -/
theorem writePixel_runningAt (S : PixelSpace) (i : Nat) (p : Pixel) :
    writePixel S i p (runningAt j x y s) = (writePixel S i p s).map (runningAt j x y) := by
  have hset : setPixel S i p (runningAt j x y s) = runningAt j x y (setPixel S i p s) := by cases S <;> rfl
  have hpar : (runningAt j x y s).par = s.par := rfl
  unfold writePixel
  rw [hset, hpar]
  split
  · rfl
  · rfl

/-- What ENCODE does to a pixel does not depend on PHASE and the position (R170). -/
theorem encodePixel_runningAt (i : Nat) :
    encodePixel i (runningAt j x y s) = (encodePixel i s).map (runningAt j x y) := by
  unfold encodePixel
  rw [readPixel_runningAt]
  cases readPixel .pixin i s with
  | error f => rfl
  | ok r =>
    obtain ⟨p, s1⟩ := r
    have hnbits : (runningAt j x y s).nbits = s.nbits := rfl
    simp only [Except.map, hnbits]
    split
    · rw [frameBit_runningAt]
      cases frameBit i s1 with
      | error f => rfl
      | ok r => exact writePixel_runningAt j x y r.2 .pixout i (writeBit p r.1)
    · exact writePixel_runningAt j x y s1 .pixout i p

end

/-- From index `i` on, the engine's turns do what the rest of the whole pass does, and complete (R170). -/
theorem runSteps_encodePass {n : Nat} : ∀ {i x y : Nat} {s t : State}, s.npix = i + n → s.mode = 0#1 → s.moves = [] →
    encodePass n i s = .ok t → ∃ x' y', runSteps (n + 1) (runningAt i x y s) = .next (completeOk (runningAt (i + n) x' y' t)) := by
  induction n with
  | zero =>
    intro i x y s t hn hmode hmoves hpass
    cases hpass
    have hturn : engineTurn (runningAt i x y s) = .next (completeOk (runningAt i x y s)) :=
      (engineTurn_encStepEnd (s := runningAt i x y s) rfl hmode hn.symm).trans
        (execEncStepEnd_enabled (s := runningAt i x y s) rfl hmode hn.symm)
    exact ⟨x, y, runSteps_turn 0 hmoves hturn⟩
  | succ n ih =>
    intro i x y s t hn hmode hmoves hpass
    have hidx : i < s.npix := by omega
    simp only [encodePass] at hpass
    split at hpass
    case h_2 => cases hpass
    case h_1 s1 hpixel =>
    have hturn : engineTurn (runningAt i x y s) = .next (advance (runningAt i x y s1)) := by
      have hpixelRun : encodePixel i (runningAt i x y s) = .ok (runningAt i x y s1) := by rw [encodePixel_runningAt, hpixel]; rfl
      exact (engineTurn_encStepPixel (s := runningAt i x y s) rfl hmode hidx).trans
        (execEncStepPixel_enabled rfl hmode hidx hpixelRun)
    have hframe := encodePixel_frame hpixel
    obtain ⟨x', y', hrun⟩ := ih (i := i + 1) (x := (advance (runningAt i x y s1)).x) (y := (advance (runningAt i x y s1)).y)
      (by rw [hframe]; show s.npix = _; omega) (by rw [hframe]; exact hmode) (by rw [hframe]; exact hmoves) hpass
    rw [Nat.add_right_comm] at hrun
    exact ⟨x', y', (runSteps_turn (s := runningAt i x y s) (n + 1) hmoves hturn).trans hrun⟩

end Sys2Proof.Machine
end

section
/-! The statements of spec/42_encoder.md and spec/43_decoder.md on the engine's progress, and that ENCODE's steps reach what the whole
command gives. -/

namespace Sys2Proof.Proofs

open Machine

/-- Settles O50: the invariant makes a busy engine ready, scheduled or not, and a ready engine has a turn. -/
theorem busyEngineIsNeverStuck : Obligations.BusyEngineIsNeverStuck := by
  intro s ms hinv busy hmoves
  have ready := engineReady_of_inv hinv busy
  rcases hmoves with hmoves | hmoves
  · obtain ⟨t, hturn, -⟩ := engineTurn_progresses ready
    exact ⟨t, (step_unscheduled hmoves).trans hturn⟩
  · obtain ⟨t, hturn, -⟩ := engineTurn_progresses ready.popMove
    exact ⟨t, (step_scheduled hmoves).trans hturn⟩

/-- Settles O51: in CHECK a ready engine has NPIX + 2 turns left at most. -/
theorem startedCommandCompletes : Obligations.StartedCommandCompletes := by
  intro s hinv hphase hmoves
  have ready := engineReady_of_inv hinv (by simp [hphase])
  exact runSteps_completes ready hmoves (if_pos hphase).le

/-- Settles O52: both ways run on the operands START latched. Where the verdict is an error, ENC_CHECK raises it and the idle block
stays; where it is none, the turns from index 0 on do the whole pass. -/
theorem encodeStepsAgreeWithTheCommand : Obligations.EncodeStepsAgreeWithTheCommand := by
  intro s idle hmoves hcap
  have hstart := execStart_encode_idle idle hcap
  have hcheck : engineTurn (latch 0#1 s) = execEncCheck (latch 0#1 s) := engineTurn_encCheck rfl rfl
  have hmovesL : (latch 0#1 s).moves = [] := hmoves
  cases hverdict : encodeVerdict (latch 0#1 s) with
  | some e =>
    have hrun : runSteps (s.width * s.height + 2) (latch 0#1 s) = .next (raiseError e (latch 0#1 s)) :=
      (runSteps_turn _ hmovesL (hcheck.trans (execEncCheck_raises rfl rfl hverdict))).trans
        (runSteps_idle (s := raiseError e (latch 0#1 s)) rfl hmovesL _)
    exact ⟨_, _, _, hstart, execEncode_idle idle hcap (runEncode_raises hverdict), hrun, rfl, rfl, rfl, rfl, rfl, rfl, rfl,
      rfl, rfl⟩
  | none =>
    obtain ⟨t, hpass⟩ := encodePass_latched hcap
    obtain ⟨x, y, hpassRun⟩ := runSteps_encodePass (x := 0) (y := 0) (Nat.zero_add _).symm rfl hmovesL hpass
    have hrun := (runSteps_turn _ hmovesL (hcheck.trans (execEncCheck_passes rfl rfl hverdict))).trans hpassRun
    exact ⟨_, _, _, hstart, execEncode_idle idle hcap (runEncode_passes hverdict hpass), hrun, rfl, rfl, rfl, rfl, rfl, rfl,
      rfl, rfl, rfl⟩

end Sys2Proof.Proofs
end

section
/-! SUPPORT. DECODE (spec/43_decoder.md): the text written, the whole command in closed form, the engine's steps, and the steps
against the whole command. -/

namespace Sys2Proof.Machine

/-! ### TXT -/

/-- A memory with a text written from index `k` on. -/
def putText : Nat → List Byte → Memory Byte → Memory Byte
  | _, [], m => m
  | k, v :: vs, m => putText (k + 1) vs (memSet m k v)

/-- Writing a text leaves the elements below and above it. -/
theorem memGet_putText_outside {l : List Byte} : ∀ {k j : Nat} {m : Memory Byte}, j < k ∨ k + l.length ≤ j →
    memGet (putText k l m) j = memGet m j := by
  induction l with
  | nil => intro k j m _; rfl
  | cons v l ih =>
    intro k j m hj
    rw [List.length_cons] at hj
    rw [putText, ih (by omega), memGet_memSet_other _ _ (by omega)]

/-- A written text is read back. -/
theorem memGet_putText_inside {l : List Byte} : ∀ {k j : Nat} {m : Memory Byte} {v : Byte}, l[j]? = some v →
    memGet (putText k l m) (k + j) = some v := by
  induction l with
  | nil => intro k j m v hv; cases hv
  | cons w l ih =>
    intro k j m v hv
    cases j with
    | zero =>
      obtain rfl : w = v := by simpa using hv
      rw [putText, memGet_putText_outside (by omega), Nat.add_zero, memGet_memSet_same]
    | succ j =>
      rw [putText, Nat.add_comm j, ← Nat.add_assoc]
      exact ih hv

/-- A text written from index 0 on is held. -/
theorem holds_putText (l : List Byte) (m : Memory Byte) : Holds (putText 0 l m) l := fun k v hv => by
  simpa using memGet_putText_inside (k := 0) (m := m) hv

/-- MemWrite of a byte within the capacity. -/
theorem writeByte_covered {S : ByteSpace} {i : Nat} {b : Byte} {s : State}
    (hc : capCovers (byteCap S s.par) (i + 1) = true) : writeByte S i b s = .ok (setByte S i b s) := if_pos hc

/-- Writing a text within the capacity (R180). -/
theorem writeText_covered {l : List Byte} : ∀ {k : Nat} {s : State}, capCovers s.par.capTxt (k + l.length) = true →
    writeText k l s = .ok { s with txt := putText k l s.txt } := by
  induction l with
  | nil => intro k s _; rfl
  | cons v l ih =>
    intro k s hc
    rw [List.length_cons] at hc
    have hwrite : writeByte .txt k v s = .ok (setByte .txt k v s) := writeByte_covered (capCovers_mono hc (by omega))
    have hrest : capCovers (setByte .txt k v s).par.capTxt (k + 1 + l.length) = true := capCovers_mono hc (by omega)
    simp only [writeText, hwrite, ih hrest]
    rfl

/-- An element has a value exactly where the memory lists its index. -/
theorem memGet_ne_none_iff {α : Type} {m : Memory α} {j : Nat} : memGet m j ≠ none ↔ j ∈ m.map Prod.fst := by
  induction m with
  | nil => simp
  | cons e m ih =>
    obtain ⟨i, v⟩ := e
    by_cases hj : i = j
    · simp [memGet, hj]
    · simpa [memGet, hj, Ne.symm hj] using ih

/-- After a DECODE the marked elements are the written ones from the text's end on (U3; log 6). -/
theorem mem_withdrawText_stale {n j : Nat} {s : State} :
    j ∈ (withdrawText n s).stale ↔ n ≤ j ∧ memGet s.txt j ≠ none := by
  rw [memGet_ne_none_iff, withdrawText_stale, List.mem_filter, decide_eq_true_iff, and_comm]

/-! ### The bits DECODE reads -/

/-- The read of a grid goes through wherever PIXIN has its elements, whatever they hold (R71). -/
theorem readBits_total {n : Nat} : ∀ {i : Nat} {s : State}, capCovers s.par.capPix (i + n) = true →
    ∃ bits t, readBits n i s = .ok (bits, t) := by
  induction n with
  | zero => intro i s _; exact ⟨[], s, rfl⟩
  | succ n ih =>
    intro i s hc
    obtain ⟨p, s1, hread⟩ := readPixel_total .pixin (i := i) (capCovers_mono hc (by omega))
    have hrest : capCovers s1.par.capPix (i + 1 + n) = true := by
      rw [readPixel_frame hread, Nat.add_right_comm]; exact hc
    obtain ⟨bits, t, hbits⟩ := ih hrest
    exact ⟨readBit p :: bits, t, by simp only [readBits, hread, hbits]⟩

/-- The read of a written grid gives the red low bits and draws nothing (R180, R181). -/
theorem readBits_filled {g : List Pixel} {s : State} (hg : Holds s.pixin g) (hc : capCovers s.par.capPix g.length = true)
    {n : Nat} : ∀ {i : Nat}, i + n = g.length → readBits n i s = .ok ((g.drop i).map readBit, s) := by
  induction n with
  | zero => intro i hi; rw [List.drop_eq_nil_of_le (by omega)]; rfl
  | succ n ih =>
    intro i hi
    have hlt : i < g.length := by omega
    have hread : readPixel .pixin i s = .ok (g[i], s) :=
      readPixel_listed (capCovers_mono hc hlt) (hg i _ (List.getElem?_eq_getElem hlt))
    rw [List.drop_eq_getElem_cons hlt]
    simp only [readBits, hread, ih (i := i + 1) (by omega), List.map_cons]

/-! ### UNFRAME's text -/

/-- A text found is shorter than the bitstream's groups by the marker's two (R184). -/
theorem length_of_unframe {bits : Bitstream} {r : List Byte} (h : unframe bits = some r) : r.length + 2 ≤ bits.length / 8 := by
  rcases firstPair_or_noPair bits with ⟨k, hk⟩ | hno
  · obtain rfl : firstGroups bits (k - 1) = r := Option.some.inj ((unframe_of_firstPair hk).symm.trans h)
    have hpos := hk.pair.1
    have hwhole := hk.whole
    rw [firstGroups, List.length_map, List.length_range]
    omega
  · rw [unframe_of_noPair hno] at h
    cases h

/-- Fewer than 16 bits hold no text (R145, R183). -/
theorem unframe_short {bits : Bitstream} (h : bits.length < 16) : unframe bits = none := by
  cases hr : unframe bits with
  | none => rfl
  | some r => have := length_of_unframe hr; omega

/-! ### The whole command -/

/-- The end of DECODE once UNFRAME has answered: the text in TXT and its length in OUT_LEN, or NotFound (R180). -/
def decodeEnd (text : Option (List Byte)) (s : State) : State :=
  match text with
  | none => withdrawText 0 (raiseError .notFound s)
  | some r => withdrawText r.length (completeOk { s with txt := putText 0 r s.txt, outLen := r.length })

/-- STATUS where no text is found (R180, R224). -/
theorem statusWord_decodeEnd_none (s : State) : statusWord (decodeEnd none s) = 0b1110#4 :=
  statusWord_raiseError .notFound s

/-- STATUS where a text is found (R180, R225). -/
theorem statusWord_decodeEnd_some (r : List Byte) (s : State) : statusWord (decodeEnd (some r) s) = 0b0010#4 :=
  statusWord_completeOk { s with txt := putText 0 r s.txt, outLen := r.length }

section
variable {s : State}

/-- DECODE on latched operands is `decodeEnd` of what UNFRAME finds in the bits read: TXT has room for any such text. -/
theorem runDecode_eq_decodeEnd {t : State} {bits : Bitstream} (hread : readBits s.npix 0 s = .ok (bits, t))
    (hc : capCovers s.par.capTxt (s.npix / 8) = true) : runDecode s = .ok (decodeEnd (unframe bits) t) := by
  obtain ⟨hframe, hlen⟩ := readBits_frame hread
  simp only [runDecode, hread]
  cases hr : unframe bits with
  | none => rfl
  | some r =>
    have hfit := length_of_unframe hr
    have hroom : capCovers t.par.capTxt (0 + r.length) = true := by
      rw [hframe]; exact capCovers_mono hc (by omega)
    simp only [writeText_covered hroom]
    rfl

/-- DECODE's index ranges: the grid in the pixel memories, its groups in TXT (R71). -/
theorem capacitiesCover_decode : capacitiesCover 1#1 s = true ↔
    capCovers s.par.capPix (s.width * s.height) = true ∧ capCovers s.par.capTxt (s.width * s.height / 8) = true := by
  simp [capacitiesCover]

variable (idle : s.phase = 0b00#2)
include idle

/-- DECODE that answers on an idle block had the memories it needs. -/
theorem capacitiesCover_of_exec_decode {t : State} (h : exec .decode s = .next t) : capacitiesCover 1#1 s = true := by
  change execDecode s = .next t at h
  rw [execDecode, if_neg (not_not.mpr idle)] at h
  exact (next_of_guarded h).1

variable (hcap : capacitiesCover 1#1 s = true)
include hcap

/-- START of DECODE on an idle block whose memories suffice latches its operands (R203). -/
theorem execStart_decode_idle : exec (.start 0b10#2) s = .next (latch 1#1 s) := by
  show startCommand 1#1 s = _
  rw [startCommand, if_neg (not_not.mpr idle), if_pos hcap]

/-- DECODE on an idle block whose memories suffice, from the bits it reads (R180). -/
theorem execDecode_of_readBits {t : State} {bits : Bitstream}
    (hread : readBits (s.width * s.height) 0 (latch 1#1 s) = .ok (bits, t)) :
    exec .decode s = .next (decodeEnd (unframe bits) t) := by
  show execDecode s = _
  rw [execDecode, if_neg (not_not.mpr idle), if_pos hcap,
    runDecode_eq_decodeEnd (s := latch 1#1 s) hread (capacitiesCover_decode.mp hcap).2]
  rfl

/-- DECODE on an idle block whose memories suffice reads one bit per pixel and ends on what UNFRAME finds in them, whatever PIXIN
holds (R180). -/
theorem execDecode_idle : ∃ bits n, bits.length = s.width * s.height ∧
    readBits (s.width * s.height) 0 (latch 1#1 s) = .ok (bits, { latch 1#1 s with draws := n }) ∧
    exec .decode s = .next (decodeEnd (unframe bits) { latch 1#1 s with draws := n }) := by
  have hpix : capCovers (latch 1#1 s).par.capPix (0 + s.width * s.height) = true := by
    rw [Nat.zero_add]; exact (capacitiesCover_decode.mp hcap).1
  obtain ⟨bits, t, hread⟩ := readBits_total hpix
  obtain ⟨hframe, hlen⟩ := readBits_frame hread
  rw [hframe] at hread
  exact ⟨bits, t.draws, hlen, hread, execDecode_of_readBits idle hcap hread⟩

/-- DECODE of a written grid ends on what UNFRAME finds in its red low bits, and draws nothing (R180, R181). -/
theorem execDecode_filled {g : List Pixel} (hlen : g.length = s.width * s.height) (hg : Holds s.pixin g) :
    exec .decode s = .next (decodeEnd (unframe (g.map readBit)) (latch 1#1 s)) := by
  refine execDecode_of_readBits idle hcap ?_
  rw [← List.drop_zero (l := g)]
  exact readBits_filled (s := latch 1#1 s) hg (hlen ▸ (capacitiesCover_decode.mp hcap).1) (by omega)

end

/-! ### The engine's steps -/

section
variable {s : State}

/-- DEC_CHECK where it is enabled (R186). -/
theorem execDecCheck_enabled (hphase : s.phase = 0b01#2) (hmode : s.mode = 1#1) :
    execDecCheck s = .next { s with phase := 0b10#2 } :=
  if_pos ⟨hphase, hmode⟩

/-- DEC_STEP's end arm where it is enabled (R189). -/
theorem execDecStepEnd_enabled (hphase : s.phase = 0b10#2) (hmode : s.mode = 1#1) (hidx : s.idx = s.npix) :
    execDecStepEnd s = .next (withdrawText 0 (raiseError .notFound s)) :=
  if_pos ⟨hphase, hmode, hidx⟩

/-- GROUP_COMPLETE where TXT has the group's element and the marker ends there (R188). -/
theorem groupComplete_of_match {v : Byte} (hc : capCovers s.par.capTxt (s.ngrp + 1) = true) (h : SentinelMatch s v) :
    groupComplete v s =
      .ok (withdrawText (s.ngrp - 1) (completeOk { setByte .txt s.ngrp v s with outLen := s.ngrp - 1 })) := by
  have hwrite : writeByte .txt s.ngrp v s = .ok (setByte .txt s.ngrp v s) := writeByte_covered hc
  simp only [groupComplete, hwrite, if_pos h]

/-- GROUP_COMPLETE where TXT has the group's element and no marker ends there (R188). -/
theorem groupComplete_of_not_match {v : Byte} (hc : capCovers s.par.capTxt (s.ngrp + 1) = true) (h : ¬SentinelMatch s v) :
    groupComplete v s =
      .ok { setByte .txt s.ngrp v s with prev := v, ngrp := s.ngrp + 1, shreg := 0#8, bitcnt := 0#3 } := by
  have hwrite : writeByte .txt s.ngrp v s = .ok (setByte .txt s.ngrp v s) := writeByte_covered hc
  simp only [groupComplete, hwrite, if_neg h]

/-- DEC_STEP's pixel arm where its pixel ends the command (R188). -/
theorem execDecStepPixel_ended {t : State} (hphase : s.phase = 0b10#2) (hmode : s.mode = 1#1) (hidx : s.idx < s.npix)
    (h : decodePixel s = .ok t) (hended : t.phase = 0b00#2) : execDecStepPixel s = .next t := by
  rw [execDecStepPixel_enabled hphase hmode hidx h, if_pos hended]

/-- DEC_STEP's pixel arm where its pixel does not end the command takes NEXT (R187). -/
theorem execDecStepPixel_advances {t : State} (hphase : s.phase = 0b10#2) (hmode : s.mode = 1#1) (hidx : s.idx < s.npix)
    (h : decodePixel s = .ok t) (hruns : t.phase = s.phase) : execDecStepPixel s = .next (advance t) := by
  rw [execDecStepPixel_enabled hphase hmode hidx h, if_neg (by simp [hruns, hphase])]

variable {p : Pixel} {n : Nat} (hread : readPixel .pixin s.idx s = .ok (p, { s with draws := n }))
include hread

/-- DEC_STEP's pixel before the eighth bit of a group shifts a bit in (R187). -/
theorem decodePixel_shift (hlast : s.bitcnt ≠ 7#3) : decodePixel s =
    .ok { s with shreg := shiftIn s.shreg (readBit p), bitcnt := s.bitcnt + 1#3, draws := n } := by
  simp only [decodePixel, hread, if_neg hlast]

/-- DEC_STEP's pixel at the eighth bit completes a group (R187). -/
theorem decodePixel_group (hlast : s.bitcnt = 7#3) :
    decodePixel s = groupComplete (shiftIn s.shreg (readBit p)) { s with draws := n } := by
  simp only [decodePixel, hread, if_pos hlast]

end

/-! ### DECODE's data path against the bits read -/

/-- Every bit of SHREG after a shift (R187). -/
theorem shiftIn_getLsbD (v : Byte) (b : Bool) {j : Nat} (hj : j < 8) :
    (shiftIn v b).getLsbD j = if j = 0 then b else v.getLsbD (j - 1) := by
  have bit : (if b then 1#8 else 0#8).getLsbD j = (b && decide (j = 0)) := by
    cases b <;> simp [BitVec.getLsbD_one]
  simp only [shiftIn, BitVec.getLsbD_or, BitVec.getLsbD_shiftLeft, bit]
  by_cases h0 : j = 0
  · simp [h0]
  · simp [h0, hj, show ¬j < 1 by omega]

/-- A group's value is the byte with its bits, the first one highest (R97). -/
theorem groupAt_eq_of_getLsbD {bits : Bitstream} {k : Nat} {v : Byte}
    (h : ∀ j < 8, bits.getD (8 * k + j) false = v.getLsbD (7 - j)) : groupAt bits k = v := by
  simp only [groupAt, h, Nat.reduceLT, Nat.reduceSub, groupValue_getLsbD]

/-- The data path after the first `i` of `bits`, no marker having ended among their groups: SHREG holds the bits of the group under
way, PREV the group before it, TXT every group (R187, R188). -/
structure GroupsRead (bits : Bitstream) (i : Nat) (s : State) : Prop where
  shreg : ∀ j < i % 8, s.shreg.getLsbD j = bits.getD (i - 1 - j) false
  prev : 1 ≤ s.ngrp → s.prev = groupAt bits (s.ngrp - 1)
  txt : ∀ k < s.ngrp, memGet s.txt k = some (groupAt bits k)
  noPair : ∀ k < s.ngrp, ¬PairEndsAt bits k

section
variable {bits : Bitstream} {i : Nat} {s : State} (h : GroupsRead bits i s)
include h

/-- The eighth bit shifted in gives the group's value. -/
theorem GroupsRead.shiftIn_eq_groupAt (hfollow : GroupsFollow s i) (hlast : i % 8 = 7) {b : Bool} (hb : bits.getD i false = b) :
    shiftIn s.shreg b = groupAt bits s.ngrp := by
  refine (groupAt_eq_of_getLsbD fun j hj => ?_).symm
  rw [shiftIn_getLsbD _ _ (by omega), hfollow.2]
  split
  case isTrue hj0 => rw [← hb]; congr 1; omega
  case isFalse hj0 => rw [h.shreg _ (by omega)]; congr 1; omega

/-- The condition GROUP_COMPLETE tests is that the marker ends at the group it completes (R188, R146). -/
theorem GroupsRead.sentinelMatch_iff : SentinelMatch s (groupAt bits s.ngrp) ↔ PairEndsAt bits s.ngrp := by
  refine and_congr_right fun hpos => ?_
  rw [h.prev hpos]

/-- A bit shifted in (R187). -/
theorem GroupsRead.shift {b : Bool} (hb : bits.getD i false = b) (n : Nat) :
    GroupsRead bits (i + 1) { s with shreg := shiftIn s.shreg b, bitcnt := s.bitcnt + 1#3, draws := n } := by
  refine ⟨fun j hj => ?_, h.prev, h.txt, h.noPair⟩
  rw [shiftIn_getLsbD _ _ (by omega)]
  split
  case isTrue hj0 => rw [← hb]; congr 1; omega
  case isFalse hj0 => rw [h.shreg _ (by omega)]; congr 1; omega

/-- A group completed at which no marker ends (R188). -/
theorem GroupsRead.complete (hlast : i % 8 = 7) (hno : ¬PairEndsAt bits s.ngrp) (n : Nat) :
    GroupsRead bits (i + 1) { setByte .txt s.ngrp (groupAt bits s.ngrp) s with
      prev := groupAt bits s.ngrp, ngrp := s.ngrp + 1, shreg := 0#8, bitcnt := 0#3, draws := n } := by
  have hnone : (i + 1) % 8 = 0 := by rw [Nat.add_mod, hlast]
  refine ⟨fun j hj => absurd (hnone ▸ hj) (Nat.not_lt_zero j), fun _ => rfl, fun k hk => ?_, fun k hk => ?_⟩
  · rw [setByte_txt_txt, memGet_memSet]
    split
    case isTrue hk' => rw [hk']
    case isFalse hk' => exact h.txt k (Nat.lt_of_le_of_ne (Nat.le_of_lt_succ hk) hk')
  · rcases Nat.lt_succ_iff_lt_or_eq.mp hk with hlt | rfl
    · exact h.noPair k hlt
    · exact hno

end

/-! ### DECODE's steps against the whole command -/

/-- What a DECODE that has found `text`, or nothing, in the grid of `s` promises the host: STATUS, OUT_LEN, the memories it does not
write and the text, whose bytes are not marked stale (R180, R190). -/
structure DecodeResult (s : State) (text : Option (List Byte)) (t : State) : Prop where
  phase : t.phase = 0b00#2
  done : t.done = 1#1
  pixin : t.pixin = s.pixin
  pixout : t.pixout = s.pixout
  pay : t.pay = s.pay
  found : ∀ r, text = some r → t.err = 0b00#2 ∧ t.outLen = r.length ∧ Holds t.txt r ∧ ∀ k < r.length, k ∉ t.stale
  notFound : text = none → t.err = 0b11#2 ∧ t.outLen = 0

/-- The promise reads nothing of the state the DECODE began in but the memories it does not write. -/
theorem DecodeResult.rebase {s s' t : State} {text : Option (List Byte)} (h : DecodeResult s text t) (hpixin : s.pixin = s'.pixin)
    (hpixout : s.pixout = s'.pixout) (hpay : s.pay = s'.pay) : DecodeResult s' text t :=
  { h with pixin := h.pixin.trans hpixin, pixout := h.pixout.trans hpixout, pay := h.pay.trans hpay }

/-- The whole command gives what it promises. -/
theorem decodeResult_decodeEnd {s : State} (hout : s.outLen = 0) (text : Option (List Byte)) :
    DecodeResult s text (decodeEnd text s) := by
  cases text with
  | none => exact ⟨rfl, rfl, rfl, rfl, rfl, fun _ => nofun, fun _ => ⟨rfl, hout⟩⟩
  | some r =>
    refine ⟨rfl, rfl, rfl, rfl, rfl, fun r' hr => ?_, nofun⟩
    obtain rfl : r = r' := Option.some.inj hr
    refine ⟨rfl, rfl, holds_putText r s.txt, fun k hk hstale => ?_⟩
    exact absurd (mem_withdrawText_stale.mp hstale).1 (Nat.not_le.mpr hk)

/-- The first groups of a bitstream, one by one. -/
theorem firstGroups_getElem?_eq_some {bits : Bitstream} {n k : Nat} {v : Byte} (h : (firstGroups bits n)[k]? = some v) :
    k < n ∧ groupAt bits k = v := by
  obtain ⟨hk, hv⟩ := List.getElem?_eq_some_iff.mp h
  exact ⟨by simpa [firstGroups] using hk, by simpa [firstGroups] using hv⟩

/-- The first marker ends at the group GROUP_COMPLETE completes: what it leaves is what DECODE promises (R188, R146). -/
theorem decodeResult_of_match {bits : Bitstream} {s : State} (hpair : FirstPairEndsAt bits s.ngrp)
    (htxt : ∀ k < s.ngrp, memGet s.txt k = some (groupAt bits k)) (v : Byte) :
    DecodeResult s (unframe bits)
      (withdrawText (s.ngrp - 1) (completeOk { setByte .txt s.ngrp v s with outLen := s.ngrp - 1 })) := by
  rw [unframe_of_firstPair hpair]
  have hlen : (firstGroups bits (s.ngrp - 1)).length = s.ngrp - 1 := by simp [firstGroups]
  refine ⟨rfl, rfl, rfl, rfl, rfl, fun r hr => ?_, nofun⟩
  obtain rfl : firstGroups bits (s.ngrp - 1) = r := Option.some.inj hr
  refine ⟨rfl, hlen.symm, fun k b hb => ?_, fun k hk hstale => ?_⟩
  · obtain ⟨hk, rfl⟩ := firstGroups_getElem?_eq_some hb
    exact (memGet_memSet_other _ _ (by omega)).trans (htxt k (by omega))
  · exact absurd (mem_withdrawText_stale.mp hstale).1 (by omega)

/-- DECODE in RUN, left alone, with the first IDX of `bits` read and no marker ended among their groups. -/
structure Decoding (bits : Bitstream) (s : State) : Prop where
  phase : s.phase = 0b10#2
  mode : s.mode = 1#1
  moves : s.moves = []
  outLen : s.outLen = 0
  npix : s.npix = bits.length
  room : capCovers s.par.capTxt (bits.length / 8) = true
  follow : GroupsFollow s s.idx
  groups : GroupsRead bits s.idx s

/-- DEC_CHECK leaves a started DECODE at the first bit (R186). -/
theorem decoding_latch {bits : Bitstream} {s : State} (hmoves : s.moves = []) (hlen : bits.length = s.width * s.height)
    (hroom : capCovers s.par.capTxt (s.width * s.height / 8) = true) :
    Decoding bits { latch 1#1 s with phase := 0b10#2 } :=
  { phase := rfl, mode := rfl, moves := hmoves, outLen := rfl, npix := hlen.symm, room := hlen ▸ hroom
    follow := ⟨rfl, (Nat.zero_div 8).symm⟩
    groups :=
      { shreg := fun j hj => absurd hj (Nat.not_lt_zero j)
        prev := fun hpos => absurd hpos (Nat.not_succ_le_zero 0)
        txt := fun k hk => absurd hk (Nat.not_lt_zero k)
        noPair := fun k hk => absurd hk (Nat.not_lt_zero k) } }

section
variable {bits : Bitstream} {s : State} (h : Decoding bits s)
include h

/-- NEXT after a pixel that did not end the command. -/
theorem Decoding.advance {u : State} (hfollow : GroupsFollow u (s.idx + 1)) (hgroups : GroupsRead bits (s.idx + 1) u)
    (hframe : u = { s with
      txt := u.txt, shreg := u.shreg, bitcnt := u.bitcnt, prev := u.prev, ngrp := u.ngrp, draws := u.draws }) :
    Decoding bits (advance u) := by
  obtain ⟨hphase, hmode, hmoves, hout, hnpix, hroom, -, -⟩ := h
  obtain ⟨hshreg, hprev, htxt, hno⟩ := hgroups
  have hidx : u.idx = s.idx := (congrArg State.idx hframe :)
  refine ⟨(congrArg State.phase hframe :).trans hphase, (congrArg State.mode hframe :).trans hmode,
    (congrArg State.moves hframe :).trans hmoves, (congrArg State.outLen hframe :).trans hout,
    (congrArg State.npix hframe :).trans hnpix, ?_, ?_, ?_⟩
  · rw [advance_par, (congrArg State.par hframe :)]; exact hroom
  · rw [advance_idx, hidx]; exact hfollow
  · rw [advance_idx, hidx]; exact ⟨hshreg, hprev, htxt, hno⟩

/-- One pixel of DECODE brings the data path on by its bit, or ends the command as `bits` demand (R187, R188). -/
theorem Decoding.decodePixel {p : Pixel} {n : Nat} (hidx : s.idx < bits.length)
    (hread : readPixel .pixin s.idx s = .ok (p, { s with draws := n })) (hbit : bits.getD s.idx false = readBit p) :
    ∃ u, decodePixel s = .ok u ∧ (DecodeResult s (unframe bits) u ∨
      (GroupsRead bits (s.idx + 1) u ∧ u.draws = n ∧ u = { s with
        txt := u.txt, shreg := u.shreg, bitcnt := u.bitcnt, prev := u.prev, ngrp := u.ngrp, draws := u.draws })) := by
  obtain ⟨hbits, hgroups⟩ := h.follow
  by_cases hlast : s.idx % 8 = 7
  · have hroom : capCovers s.par.capTxt (s.ngrp + 1) = true := capCovers_mono h.room (by omega)
    have hgroup := decodePixel_group hread (BitVec.eq_of_toNat_eq (hbits.trans hlast))
    rw [h.groups.shiftIn_eq_groupAt h.follow hlast hbit] at hgroup
    by_cases hpair : PairEndsAt bits s.ngrp
    · have hfirst : FirstPairEndsAt bits s.ngrp := ⟨by omega, hpair, h.groups.noPair⟩
      have hmatch := groupComplete_of_match (s := { s with draws := n }) hroom (h.groups.sentinelMatch_iff.mpr hpair)
      refine ⟨_, hgroup.trans hmatch, .inl ?_⟩
      exact (decodeResult_of_match (s := { s with draws := n }) hfirst h.groups.txt _).rebase rfl rfl rfl
    · have hnext := groupComplete_of_not_match (s := { s with draws := n }) hroom
        (mt h.groups.sentinelMatch_iff.mp hpair)
      exact ⟨_, hgroup.trans hnext, .inr ⟨h.groups.complete hlast hpair n, rfl, rfl⟩⟩
  · have hnot : s.bitcnt ≠ 7#3 := fun h7 => hlast (by rw [← hbits, h7]; rfl)
    exact ⟨_, decodePixel_shift hread hnot, .inr ⟨h.groups.shift hbit n, rfl, rfl⟩⟩

/-- The engine's turn at a pixel of DECODE ends the command as `bits` demand, or leaves it at the pixel after. -/
theorem Decoding.turn {p : Pixel} {n : Nat} (hidx : s.idx < bits.length)
    (hread : readPixel .pixin s.idx s = .ok (p, { s with draws := n })) (hbit : bits.getD s.idx false = readBit p) :
    ∃ t, engineTurn s = .next t ∧ t.moves = [] ∧ (DecodeResult s (unframe bits) t ∨
      (Decoding bits t ∧ t.idx = s.idx + 1 ∧ t.draws = n ∧ t.storage = { s.storage with txt := t.txt })) := by
  obtain ⟨u, hu, hend⟩ := h.decodePixel hidx hread hbit
  have hlt : s.idx < s.npix := h.npix ▸ hidx
  have hturn := engineTurn_decStepPixel h.phase h.mode hlt
  have hmoves := (decodePixel_moves hu).trans h.moves
  rcases hend with hresult | ⟨hgroups, hdraws, hframe⟩
  · exact ⟨u, hturn.trans (execDecStepPixel_ended h.phase h.mode hlt hu hresult.phase), hmoves, .inl hresult⟩
  · have hphase : u.phase = s.phase := (congrArg State.phase hframe :)
    have hnext := execDecStepPixel_advances h.phase h.mode hlt hu hphase
    have hfollow := (decodePixel_groupsFollow hu h.follow).resolve_left fun ⟨hidle, _⟩ => by
      simp [hphase, h.phase] at hidle
    refine ⟨_, hturn.trans hnext, hmoves, .inr ⟨h.advance hfollow hgroups hframe, ?_, hdraws, (decodePixel_storage hu :)⟩⟩
    rw [advance_idx, (congrArg State.idx hframe :)]

/-- The engine's turn at the end of the grid raises NotFound, and `bits` hold no text (R189, R146). -/
theorem Decoding.lastTurn (hidx : s.idx = bits.length) :
    ∃ t, engineTurn s = .next t ∧ DecodeResult s (unframe bits) t := by
  have hend : s.idx = s.npix := h.npix ▸ hidx
  have hno : NoPair bits := fun k hk => h.groups.noPair k (by rw [h.follow.2, hidx]; exact hk)
  rw [unframe_of_noPair hno]
  exact ⟨_, (engineTurn_decStepEnd h.phase h.mode hend).trans (execDecStepEnd_enabled h.phase h.mode hend),
    decodeResult_decodeEnd h.outLen none⟩

end

/-- MemRead of PIXIN reads the parameters, the memory and the draw counter alone. -/
theorem readPixel_pixin_congr {s t s' : State} {i : Nat} {p : Pixel} (hpar : t.par = s.par) (hpixin : t.pixin = s.pixin)
    (hdraws : t.draws = s.draws) (h : readPixel .pixin i s = .ok (p, s')) :
    readPixel .pixin i t = .ok (p, { t with draws := s'.draws }) := by
  have hmem : pixelMem .pixin t = pixelMem .pixin s := hpixin
  unfold readPixel at h ⊢
  rw [hpar, hmem]
  split at h
  case isFalse => cases h
  case isTrue hc =>
  rw [if_pos hc]
  split at h
  · cases h
    rw [← hdraws, ← hpar]
  · cases h
    rw [drawPixel, ← hdraws, ← hpar]

/-- The read of a grid takes its first pixel, then the rest (R180). -/
theorem readBits_succ {n i : Nat} {s t : State} {bits : Bitstream} (h : readBits (n + 1) i s = .ok (bits, t)) :
    ∃ p s1 rest, readPixel .pixin i s = .ok (p, s1) ∧ readBits n (i + 1) s1 = .ok (rest, t) ∧ bits = readBit p :: rest := by
  simp only [readBits] at h
  split at h
  · cases h
  · rename_i p s1 hread
    split at h
    · rename_i rest s2 hrest
      cases h
      exact ⟨p, s1, rest, hread, hrest, rfl⟩
    · cases h

/-- From IDX on, the engine's turns end the command as the bits demand that the rest of the whole read gives: the two read the same
pixels, a free value for an unwritten one being drawn by both at the same draw (R190). -/
theorem Decoding.runs {bits : Bitstream} {n : Nat} : ∀ {s w w' : State}, Decoding bits s → s.idx + n = bits.length →
    s.par = w.par → s.pixin = w.pixin → s.draws = w.draws → readBits n s.idx w = .ok (bits.drop s.idx, w') →
    ∃ t, runSteps (n + 1) s = .next t ∧ DecodeResult s (unframe bits) t := by
  induction n with
  | zero =>
    intro s w w' h hidx _ _ _ _
    obtain ⟨t, hturn, hresult⟩ := h.lastTurn hidx
    exact ⟨t, runSteps_turn 0 h.moves hturn, hresult⟩
  | succ n ih =>
    intro s w w' h hidx hpar hpixin hdraws hbits
    obtain ⟨p, w1, rest, hread, hrest, hcons⟩ := readBits_succ hbits
    have hlt : s.idx < bits.length := by omega
    rw [List.drop_eq_getElem_cons hlt, List.cons.injEq] at hcons
    obtain ⟨hbit, rfl⟩ := hcons
    have hbit' : bits.getD s.idx false = readBit p := by rw [List.getD_eq_getElem _ _ hlt, hbit]
    obtain ⟨t, hturn, hmoves, hend⟩ := h.turn hlt (readPixel_pixin_congr hpar hpixin hdraws hread) hbit'
    rw [runSteps_turn (n + 1) h.moves hturn]
    rcases hend with hresult | ⟨hnext, htidx, htdraws, hstorage⟩
    · exact ⟨t, runSteps_idle hresult.phase hmoves _, hresult⟩
    · obtain ⟨htpar, htpixin, htpixout, htpay⟩ := storage_eq_but_txt_iff.mp hstorage
      have hw1 := readPixel_frame hread
      obtain ⟨v, hrun, hresult⟩ := ih (w := w1) hnext (by omega) (by rw [htpar, hpar, hw1]) (by rw [htpixin, hpixin, hw1])
        htdraws (by rw [htidx]; exact hrest)
      exact ⟨v, hrun, hresult.rebase htpixin htpixout htpay⟩

/-- Two DECODEs that found the same text in blocks with the same memories promise the host the same. -/
theorem DecodeResult.agree {s t u : State} {text : Option (List Byte)} (ht : DecodeResult s text t)
    (hu : DecodeResult s text u) : u.err = t.err ∧ u.done = t.done ∧ u.outLen = t.outLen ∧ u.pixin = t.pixin ∧
      u.pixout = t.pixout ∧ u.pay = t.pay ∧ ∀ k < t.outLen, memGet u.txt k = memGet t.txt k ∧ k ∉ u.stale ∧ k ∉ t.stale := by
  have hdone := hu.done.trans ht.done.symm
  have hpixin := hu.pixin.trans ht.pixin.symm
  have hpixout := hu.pixout.trans ht.pixout.symm
  have hpay := hu.pay.trans ht.pay.symm
  cases text with
  | none =>
    obtain ⟨hterr, htlen⟩ := ht.notFound rfl
    obtain ⟨huerr, hulen⟩ := hu.notFound rfl
    exact ⟨huerr.trans hterr.symm, hdone, hulen.trans htlen.symm, hpixin, hpixout, hpay, fun k hk => by omega⟩
  | some r =>
    obtain ⟨hterr, htlen, httxt, htfresh⟩ := ht.found r rfl
    obtain ⟨huerr, hulen, hutxt, hufresh⟩ := hu.found r rfl
    refine ⟨huerr.trans hterr.symm, hdone, hulen.trans htlen.symm, hpixin, hpixout, hpay, fun k hk => ?_⟩
    have hkr : k < r.length := htlen ▸ hk
    have hget : r[k]? = some r[k] := List.getElem?_eq_getElem hkr
    exact ⟨(hutxt k _ hget).trans (httxt k _ hget).symm, hufresh k hkr, htfresh k hkr⟩

end Sys2Proof.Machine
end

section
/-! SUPPORT. What ENCODE leaves in PIXOUT, over any carrier, for a DECODE to read (spec/43_decoder.md R193). -/

namespace Sys2Proof.Machine

/-- The latched operands of an ENCODE with the payload `t` written in PAY, whatever the carrier is (R160, R254). -/
structure PayloadLoaded (s : State) (t : List Byte) : Prop where
  lenL : s.lenL = t.length
  nbits : s.nbits = 8 * s.lenL + 16
  pay : Holds s.pay t
  payCap : capCovers s.par.capPay s.lenL = true

/-- Pixel `k` of a memory is written and carries its bit of the frame of `t`, if there is one for it (R163). -/
def Carries (t : List Byte) (m : Memory Pixel) (k : Nat) : Prop :=
  ∃ q, memGet m k = some q ∧ ∀ b, (frame t)[k]? = some b → readBit q = b

section
variable {t : List Byte}

/-- Draws and writes of PIXOUT leave the payload loaded. -/
theorem PayloadLoaded.setPixout {s : State} (h : PayloadLoaded s t) (m : Memory Pixel) (n : Nat) :
    PayloadLoaded { s with pixout := m, draws := n } t :=
  ⟨h.lenL, h.nbits, h.pay, h.payCap⟩

/-- One pixel of ENCODE over a written payload carries its bit of the frame, whatever the carrier pixel is (R167). -/
theorem encodePixel_carries {s u : State} {i : Nat} (h : PayloadLoaded s t) (hu : encodePixel i s = .ok u) :
    ∃ q, u = setPixel .pixout i q { s with draws := u.draws } ∧ ∀ b, (frame t)[i]? = some b → readBit q = b := by
  unfold encodePixel at hu
  split at hu
  · cases hu
  · rename_i p s1 hread
    have hs1 := readPixel_frame hread
    have hloaded : PayloadLoaded s1 t := by rw [hs1]; exact h.setPixout s.pixout s1.draws
    have written {q : Pixel} (hw : writePixel .pixout i q s1 = .ok u) :
        u = setPixel .pixout i q { s with draws := u.draws } := by
      obtain rfl := writePixel_ok hw
      rw [setPixel_draws, ← hs1]
    split at hu
    case isTrue hi =>
      have hi1 : i < s1.nbits := by rw [hs1]; exact hi
      obtain ⟨b, hbit, hframeBit⟩ := frameBit_eq_frame hloaded.lenL hloaded.nbits hloaded.pay hloaded.payCap hi1
      simp only [hframeBit] at hu
      refine ⟨_, written hu, fun c hc => ?_⟩
      rw [readBit_writeBit, Option.some.inj (hbit.symm.trans hc)]
    case isFalse hi =>
      refine ⟨_, written hu, fun c hc => ?_⟩
      have hend : (frame t).length ≤ i := by rw [length_frame, ← h.lenL, ← h.nbits]; omega
      rw [List.getElem?_eq_none hend] at hc
      cases hc

/-- ENCODE's pass over a written payload leaves every pixel of its range carrying its bit, and the others as they were (R163). -/
theorem encodePass_carries {n : Nat} : ∀ {i : Nat} {s u : State}, PayloadLoaded s t → encodePass n i s = .ok u →
    (∀ k, i ≤ k → k < i + n → Carries t u.pixout k) ∧ ∀ k < i, memGet u.pixout k = memGet s.pixout k := by
  induction n with
  | zero =>
    intro i s u _ hu
    cases hu
    exact ⟨fun k _ _ => by omega, fun _ _ => rfl⟩
  | succ n ih =>
    intro i s u h hu
    simp only [encodePass] at hu
    split at hu
    case h_2 => cases hu
    case h_1 s1 hpixel =>
    obtain ⟨q, hs1, hq⟩ := encodePixel_carries h hpixel
    have hloaded : PayloadLoaded s1 t := by rw [hs1]; exact h.setPixout _ _
    obtain ⟨hcarries, hkept⟩ := ih hloaded hu
    have hget (k : Nat) : memGet s1.pixout k = if k = i then some q else memGet s.pixout k := by
      rw [hs1]; exact memGet_memSet _ _ _ _
    refine ⟨fun k hik hki => ?_, fun k hk => ?_⟩
    · rcases Nat.eq_or_lt_of_le hik with rfl | hlt
      · exact ⟨q, by rw [hkept i (by omega), hget, if_pos rfl], hq⟩
      · exact hcarries k hlt (by omega)
    · rw [hkept k (by omega), hget, if_neg (by omega)]

end

/-- Operands that pass the validation have a frame that fits (R162). -/
theorem nbits_le_npix_of_encodeVerdict {s : State} (h : encodeVerdict s = none) : s.nbits ≤ s.npix := by
  unfold encodeVerdict at h
  split_ifs at h
  omega

/-- ENCODE that ends with OK had a frame that fits, and went through the pass (R160 to R162). -/
theorem exec_encode_ok {s u : State} (idle : s.phase = 0b00#2) (h : exec .encode s = .next u) (hok : statusWord u = 0b0010#4) :
    capCovers s.par.capPay s.len = true ∧ 8 * s.len + 16 ≤ s.width * s.height ∧
      ∃ t, encodePass (s.width * s.height) 0 (latch 0#1 s) = .ok t ∧ u = completeOk t := by
  change execEncode s = .next u at h
  rw [execEncode, if_neg (not_not.mpr idle)] at h
  obtain ⟨hcap, hrun⟩ := next_of_guarded h
  rw [toOutcome_eq_next] at hrun
  refine ⟨(capacitiesCover_encode.mp hcap).2, ?_⟩
  cases hverdict : encodeVerdict (latch 0#1 s) with
  | some e =>
    obtain rfl : raiseError e (latch 0#1 s) = u := by simpa [runEncode_raises hverdict] using hrun
    rw [statusWord_raiseError] at hok
    cases e <;> exact absurd hok (by decide)
  | none =>
    have hfit : 8 * s.len + 16 ≤ s.width * s.height := nbits_le_npix_of_encodeVerdict hverdict
    simp only [runEncode, hverdict] at hrun
    split at hrun
    · rename_i t hpass
      cases hrun
      exact ⟨hfit, t, hpass, rfl⟩
    · cases hrun

/-- A memory whose first `n` pixels are written holds a grid of `n` pixels, of which all that is said of them is true. -/
theorem exists_holds_of_forall {m : Memory Pixel} {n : Nat} {P : Nat → Pixel → Prop}
    (h : ∀ k < n, ∃ q, memGet m k = some q ∧ P k q) :
    ∃ g : List Pixel, g.length = n ∧ Holds m g ∧ ∀ k q, g[k]? = some q → P k q := by
  choose pixel hpixel using h
  have hget {k : Nat} {q : Pixel} (hq : (List.ofFn fun j : Fin n => pixel j j.isLt)[k]? = some q) :
      ∃ hk : k < n, pixel k hk = q := by
    obtain ⟨hk, hq⟩ := List.getElem?_eq_some_iff.mp hq
    exact ⟨by simpa using hk, by simpa using hq⟩
  refine ⟨List.ofFn fun j : Fin n => pixel j j.isLt, List.length_ofFn, fun k q hq => ?_, fun k q hq => ?_⟩
  · obtain ⟨hk, rfl⟩ := hget hq
    exact (hpixel k hk).1
  · obtain ⟨hk, rfl⟩ := hget hq
    exact (hpixel k hk).2

/-- A memory whose first `n` pixels carry the frame of `t`, which is no longer, holds a grid whose red low bits are the frame and
whatever follows (R163, R193). -/
theorem exists_grid_of_carries {t : List Byte} {m : Memory Pixel} {n : Nat} (h : ∀ k < n, Carries t m k)
    (hfit : 8 * t.length + 16 ≤ n) :
    ∃ (g : List Pixel) (r : Bitstream), g.length = n ∧ Holds m g ∧ g.map readBit = frame t ++ r := by
  obtain ⟨g, hlen, hg, hbits⟩ := exists_holds_of_forall h
  have hframe : (g.map readBit).take (frame t).length = frame t := by
    refine List.ext_getElem (by simp [length_frame]; omega) fun k hk hkf => ?_
    have hkg : k < g.length := by simp at hk; omega
    simpa using hbits k _ (List.getElem?_eq_getElem hkg) _ (List.getElem?_eq_getElem hkf)
  exact ⟨g, _, hlen, hg, (List.take_append_drop _ _).symm.trans (congrArg (· ++ _) hframe)⟩

/-- A payload holds no pair or has a first one (R147). -/
theorem noCollision_or_firstCollision (t : List Byte) : NoCollision t ∨ ∃ i, FirstCollision t i := by
  classical
  by_cases h : ∃ i, t[i]? = some 0xFF#8 ∧ t[i + 1]? = some 0xFE#8
  · obtain ⟨hff, hfe⟩ := Nat.find_spec h
    exact .inr ⟨_, hff, hfe, fun j hj => Nat.find_min h hj⟩
  · exact .inl fun i hi => h ⟨i, hi⟩

end Sys2Proof.Machine
end

section
/-! The statements of spec/43_decoder.md. -/

namespace Sys2Proof.Proofs

open Machine

/-- Settles O34: DECODE of a written grid ends on what UNFRAME finds in its red low bits; where that is a text, TXT is written from
index 0 on. -/
theorem decodeRecoversTheUnframedText : Obligations.DecodeRecoversTheUnframedText := by
  intro s g idle hcap hlen hg
  refine ⟨_, execDecode_filled idle hcap hlen hg, ?_⟩
  cases hr : unframe (g.map readBit) with
  | none => exact ⟨⟨rfl, rfl, rfl, rfl, rfl, rfl⟩, ⟨rfl, rfl⟩, rfl, rfl, fun _ => nofun, fun _ =>
      ⟨statusWord_decodeEnd_none _, rfl, rfl⟩⟩
  | some r =>
    refine ⟨⟨rfl, rfl, rfl, rfl, rfl, rfl⟩, ⟨rfl, rfl⟩, rfl, rfl, fun r' hr' => ?_, nofun⟩
    obtain rfl : r = r' := Option.some.inj hr'
    exact ⟨statusWord_decodeEnd_some _ _, rfl, holds_putText _ _, fun k hk => memGet_putText_outside (.inr (by omega))⟩

/-- Settles O35: fewer than 16 pixels give fewer than 16 bits, in which UNFRAME finds nothing. -/
theorem decodeOfSmallGridIsNotFound : Obligations.DecodeOfSmallGridIsNotFound := by
  intro s idle hcap hsmall
  obtain ⟨bits, n, hlen, -, hexec⟩ := execDecode_idle idle hcap
  rw [unframe_short (hlen ▸ hsmall)] at hexec
  exact ⟨_, hexec, statusWord_decodeEnd_none _, rfl⟩

/-- Settles O36: only a text gives STATUS 0010, and it is shorter than the grid's groups by the marker. -/
theorem decodedTextFitsTheGrid : Obligations.DecodedTextFitsTheGrid := by
  intro s u idle hu hok
  obtain ⟨bits, n, hlen, -, hexec⟩ := execDecode_idle idle (capacitiesCover_of_exec_decode idle hu)
  obtain rfl : _ = u := by simpa [hexec] using hu
  cases hr : unframe bits with
  | none =>
    rw [hr, statusWord_decodeEnd_none] at hok
    exact absurd hok (by decide)
  | some r => exact hlen ▸ length_of_unframe hr

/-- Settles O37: both runs end on what UNFRAME finds in the same bits, and that end reads nothing of PIXIN. -/
theorem decodeDependsOnlyOnRedLowBits : Obligations.DecodeDependsOnlyOnRedLowBits := by
  intro s m g g' idle hcap hlen hg hg' hbits
  have hlen' : g'.length = s.width * s.height := by rw [← hlen]; simpa using (congrArg List.length hbits).symm
  have hexec' := execDecode_filled (s := { s with pixin := m }) idle hcap hlen' hg'
  rw [← hbits] at hexec'
  refine ⟨_, _, execDecode_filled idle hcap hlen hg, hexec', ?_⟩
  cases unframe (g.map readBit) with
  | none => exact ⟨rfl, rfl, rfl, rfl⟩
  | some r => exact ⟨rfl, rfl, rfl, rfl⟩

/-- Settles O42: ENCODE leaves a grid whose red low bits are the frame and whatever follows, of which UNFRAME finds the payload, cut
at its first pair if it holds one. -/
theorem decodeOfEncodeReturnsThePayload : Obligations.DecodeOfEncodeReturnsThePayload := by
  intro s u s' t idle hlen hpay hu hok idle' hwidth hheight hcap' hpixin
  obtain ⟨hpayCap, hfit, t1, hpass, rfl⟩ := exec_encode_ok idle hu hok
  have hloaded : PayloadLoaded (latch 0#1 s) t := ⟨hlen, rfl, hpay, hpayCap⟩
  have hcarries : ∀ k < s.width * s.height, Carries t s'.pixin k := fun k hk => by
    rw [Carries, hpixin k hk]
    exact (encodePass_carries hloaded hpass).1 k (Nat.zero_le k) (by omega)
  obtain ⟨g, r, hglen, hg, hbits⟩ := exists_grid_of_carries hcarries (hlen ▸ hfit)
  obtain ⟨v, hv, -, -, -, -, hfound, -⟩ :=
    decodeRecoversTheUnframedText s' g idle' hcap' (by rw [hglen, hwidth, hheight]) hg
  obtain ⟨hwhole, hcut⟩ := framingRoundTrip t r
  rw [← hbits] at hwhole hcut
  refine ⟨v, hv, ?_, fun hno => ?_, fun i hi => ?_⟩
  · rcases noCollision_or_firstCollision t with hno | ⟨i, hi⟩
    · exact (hfound _ (hwhole hno)).1
    · exact (hfound _ (hcut i hi)).1
  · obtain ⟨-, hout, htxt, -⟩ := hfound _ (hwhole hno)
    exact ⟨hout, htxt⟩
  · obtain ⟨-, hout, htxt, -⟩ := hfound _ (hcut i hi)
    have hlt : i < t.length := (List.getElem?_eq_some_iff.mp hi.1).1
    exact ⟨by rw [hout, List.length_take]; omega, htxt⟩

/-- Settles O53: both ways run on the operands START latched and read the same bits, and both end as those bits demand. -/
theorem decodeStepsAgreeWithTheCommand : Obligations.DecodeStepsAgreeWithTheCommand := by
  intro s idle hmoves hcap
  obtain ⟨bits, n, hlen, hread, hexec⟩ := execDecode_idle idle hcap
  have hstart := decoding_latch hmoves hlen (capacitiesCover_decode.mp hcap).2
  obtain ⟨u, hrun, hu⟩ := hstart.runs (w := latch 1#1 s) (by rw [hlen]; exact Nat.zero_add _) rfl rfl rfl hread
  have hturn := (engineTurn_decCheck (s := latch 1#1 s) rfl rfl).trans (execDecCheck_enabled (s := latch 1#1 s) rfl rfl)
  have ht := decodeResult_decodeEnd (s := { latch 1#1 s with draws := n }) rfl (unframe bits)
  have hagree := (ht.rebase (s' := latch 1#1 s) rfl rfl rfl).agree (hu.rebase rfl rfl rfl)
  exact ⟨_, _, u, execStart_decode_idle idle hcap, hexec, (runSteps_turn (s := latch 1#1 s) _ hmoves hturn).trans hrun,
    hu.phase, ht.phase, hagree⟩

/-- Settles O38: DEC_CHECK is enabled and tests nothing. -/
theorem decCheckValidatesNothing : Obligations.DecCheckValidatesNothing := fun _ => execDecCheck_enabled

/-- Settles O39: the pixel is listed, so nothing is drawn; a bit is shifted in and NEXT follows. -/
theorem decStepShiftsOneBitIn : Obligations.DecStepShiftsOneBitIn := by
  intro s p hphase hmode hidx hp hc hlast
  have hpixel := decodePixel_shift (n := s.draws) (readPixel_listed (S := .pixin) hc hp) hlast
  exact execDecStepPixel_advances hphase hmode hidx hpixel rfl

/-- Settles O40: the eighth bit completes a group, which ends the command on a match and is followed by NEXT on none. -/
theorem decStepCompletesAGroup : Obligations.DecStepCompletesAGroup := by
  intro s p v hphase hmode hidx hp hc hlast hroom hv
  have hgroup : decodePixel s = groupComplete v s := by
    rw [hv]; exact decodePixel_group (n := s.draws) (readPixel_listed (S := .pixin) hc hp) hlast
  by_cases hmatch : SentinelMatch s v
  · have hpixel := hgroup.trans (groupComplete_of_match hroom hmatch)
    exact ⟨_, execDecStepPixel_ended hphase hmode hidx hpixel rfl, fun j => memGet_memSet _ _ _ _,
      fun _ => ⟨sameButWorking_refl _, fun j => mem_withdrawText_stale⟩, fun hno => absurd hmatch hno⟩
  · have hpixel := hgroup.trans (groupComplete_of_not_match hroom hmatch)
    exact ⟨_, execDecStepPixel_advances hphase hmode hidx hpixel rfl, fun j => memGet_memSet _ _ _ _,
      fun h => absurd h hmatch, fun _ => rfl⟩

/-- Settles O41: the end arm is `raise NotFound`, and all of the written text is withdrawn. -/
theorem decStepEndRaisesNotFound : Obligations.DecStepEndRaisesNotFound := by
  intro s hphase hmode hidx
  refine ⟨_, execDecStepEnd_enabled hphase hmode hidx, sameButWorking_refl _, fun j => ?_⟩
  rw [mem_withdrawText_stale]
  exact and_iff_right (Nat.zero_le j)

end Sys2Proof.Proofs
end

section
/-! SUPPORT. The host's transactions one by one (spec/44_host_commands.md R201 to R206): STATUS as a number, START while busy, the
elements FILL replaces and the elements DRAIN returns. -/

namespace Sys2Proof.Machine

/-! ### Registers and commands -/

/-- STATUS as the host reads it: ERR, DONE, BUSY from the high end down (R202; spec/10_state.md R23). -/
theorem statusWord_toNat (s : State) :
    (statusWord s).toNat = 4 * s.err.toNat + 2 * s.done.toNat + (if s.phase = 0b00#2 then 0 else 1) := by
  have fields (e : BitVec 2) (d b : BitVec 1) : (e ++ d ++ b).toNat = 4 * e.toNat + 2 * d.toNat + b.toNat := by
    revert e d b; decide
  rw [statusWord, fields, busyBit]
  split <;> rfl

section
variable {s : State} (busy : s.phase ≠ 0b00#2)
include busy

/-- A START is ignored while a command runs (R203). -/
theorem startCommand_busy (mode : BitVec 1) : startCommand mode s = .next s := if_pos busy

/-- Whatever its operand, a START is ignored while a command runs (R203). -/
theorem startOp_busy (op : BitVec 2) : startOp op s = .next s := by
  simp only [startOp, startCommand_busy busy, ite_self]

end

/-! ### A list of elements as a memory -/

section
variable {α : Type}

/-- What a canonical memory lists at an index is what reads there. -/
theorem memGet_of_mem {m : Memory α} (hwf : Memory.wf m) {i : Nat} {v : α} (h : (i, v) ∈ m) : memGet m i = some v := by
  induction m with
  | nil => cases h
  | cons e m ih =>
    obtain ⟨hbelow, hrest⟩ := List.pairwise_cons.mp hwf
    rcases List.mem_cons.mp h with rfl | hm
    · simp [memGet]
    · simpa [memGet, Nat.ne_of_lt (hbelow _ hm)] using ih hrest hm

/-- A canonical memory lists nothing below its first index. -/
theorem memGet_cons_tail {e : Nat × α} {m : Memory α} (hwf : Memory.wf (e :: m)) : memGet m e.1 = none := by
  cases h : memGet m e.1 with
  | none => rfl
  | some v => exact absurd ((List.pairwise_cons.mp hwf).1 _ (memGet_mem h)) (Nat.lt_irrefl _)

/-- A memory after elements are written into it, one after the other (R206). -/
def setAll : List (Nat × α) → Memory α → Memory α
  | [], m => m
  | e :: es, m => setAll es (memSet m e.1 e.2)

/-- Elements of rising indices, written into a memory, replace the elements they name and no other (spec/20_memory.md R62). -/
theorem memGet_setAll {es : List (Nat × α)} (hwf : Memory.wf es) (m : Memory α) (j : Nat) :
    memGet (setAll es m) j = (memGet es j).or (memGet m j) := by
  induction es generalizing m with
  | nil => rfl
  | cons e es ih =>
    rw [setAll, ih (List.pairwise_cons.mp hwf).2, memGet_memSet, memGet]
    by_cases hj : j = e.1
    · subst hj; simp [memGet_cons_tail hwf]
    · simp [hj, Ne.symm hj]

/-- Values placed from an index on read back at their places. -/
theorem memGet_placeFrom (a : Nat) (vs : List α) (j : Nat) :
    memGet (placeFrom a vs) j = if a ≤ j then vs[j - a]? else none := by
  induction vs generalizing a with
  | nil => simp [placeFrom]
  | cons v vs ih =>
    rw [placeFrom, memGet, ih]
    rcases Nat.lt_trichotomy a j with h | rfl | h
    · obtain ⟨k, rfl⟩ : ∃ k, j = a + 1 + k := ⟨j - (a + 1), by omega⟩
      rw [if_neg (by omega), if_pos (by omega), if_pos (by omega), show a + 1 + k - a = k + 1 by omega,
        Nat.add_sub_cancel_left, List.getElem?_cons_succ]
    · simp
    · rw [if_neg (by omega), if_neg (by omega), if_neg (by omega)]

/-- Values placed from an index on stand at rising indices. -/
theorem placeFrom_wf (a : Nat) (vs : List α) : Memory.wf (placeFrom a vs) := by
  induction vs generalizing a with
  | nil => exact wf_nil
  | cons v vs ih =>
    refine List.pairwise_cons.mpr ⟨fun e he => ?_, ih (a + 1)⟩
    have hget := memGet_of_mem (ih (a + 1)) he
    rw [memGet_placeFrom] at hget
    split at hget
    · assumption
    · cases hget

/-- The elements of a FILL form stand at rising indices. -/
theorem fillElements_wf (f : FillForm α) : Memory.wf (fillElements f) := by
  cases f with
  | one i v => exact List.pairwise_singleton _ _
  | range a b v => exact placeFrom_wf _ _
  | list a vs => exact placeFrom_wf _ _

/-- The elements of a FILL form are the values it gives (R205). -/
theorem memGet_fillElements (f : FillForm α) (j : Nat) : memGet (fillElements f) j = formValue f j := by
  cases f with
  | one i v => simp [fillElements, memGet, formValue, eq_comm]
  | range a b v =>
    rw [fillElements, memGet_placeFrom, formValue]
    by_cases ha : a ≤ j
    · simp only [ha, if_true, true_and, List.getElem?_replicate]
      congr 1
      exact propext (by omega)
    · simp [ha]
  | list a vs => exact memGet_placeFrom a vs j

/-- A memory filled from index 0 on with a list holds the list. -/
theorem holds_setAll_placeFrom (l : List α) (m : Memory α) : Holds (setAll (placeFrom 0 l) m) l := fun k v hv => by
  simp [memGet_setAll (placeFrom_wf 0 l), memGet_placeFrom, hv]

/-- A form that names only elements the memory has, element by element. -/
theorem fillElements_covered {f : FillForm α} {c : Option Nat} (h : ∀ j v, formValue f j = some v → capCovers c (j + 1) = true) :
    ∀ e ∈ fillElements f, capCovers c (e.1 + 1) = true := fun e he =>
  h e.1 e.2 (by rw [← memGet_fillElements]; exact memGet_of_mem (fillElements_wf f) he)

/-- A list placed from index 0 on in a memory that has room for it, element by element. -/
theorem placeFrom_covered {l : List α} {c : Option Nat} (h : capCovers c l.length = true) :
    ∀ e ∈ placeFrom 0 l, capCovers c (e.1 + 1) = true :=
  fillElements_covered (f := .list 0 l) fun _ v hv =>
    capCovers_mono h (List.getElem?_eq_some_iff (a := v) |>.mp (by simpa [formValue] using hv)).1

end

/-! ### FILL -/

/-- The state with the contents of a pixel memory replaced. -/
def setPixelMem (S : PixelSpace) (m : Memory Pixel) (s : State) : State :=
  match S with
  | .pixin => { s with pixin := m }
  | .pixout => { s with pixout := m }

/-- FILL of pixels the memory has (R206). -/
theorem fillPixels_covered {S : PixelSpace} {es : List (Nat × Pixel)} {s : State}
    (hc : ∀ e ∈ es, capCovers s.par.capPix (e.1 + 1) = true) :
    fillPixels S es s = .ok (setPixelMem S (setAll es (pixelMem S s)) s) := by
  induction es generalizing s with
  | nil => cases S <;> rfl
  | cons e es ih =>
    obtain ⟨hfirst, hrest⟩ := List.forall_mem_cons.mp hc
    have hnext := ih (s := setPixel S e.1 e.2 s) (by rwa [setPixel_par])
    simp only [fillPixels, writePixel_covered hfirst, hnext]
    cases S <;> rfl

/-- FILL of bytes PAY has (R206). -/
theorem fillBytes_pay_covered {es : List (Nat × Byte)} {s : State} (hc : ∀ e ∈ es, capCovers s.par.capPay (e.1 + 1) = true) :
    fillBytes .pay es s = .ok { s with pay := setAll es s.pay } := by
  induction es generalizing s with
  | nil => rfl
  | cons e es ih =>
    obtain ⟨hfirst, hrest⟩ := List.forall_mem_cons.mp hc
    have hwrite : hostWriteByte .pay e.1 e.2 s = .ok (setByte .pay e.1 e.2 s) := writeByte_covered hfirst
    have hnext := ih (s := setByte .pay e.1 e.2 s) hrest
    simp only [fillBytes, hwrite, hnext]
    rfl

/-- A host write of a byte TXT has sets the element and takes its mark away (log 6). -/
theorem hostWriteByte_txt_covered {i : Nat} {b : Byte} {s : State} (hc : capCovers s.par.capTxt (i + 1) = true) :
    hostWriteByte .txt i b s = .ok { setByte .txt i b s with stale := s.stale.filter fun k => decide (k ≠ i) } := by
  have hwrite : writeByte .txt i b s = .ok (setByte .txt i b s) := writeByte_covered hc
  simp only [hostWriteByte, hwrite, setByte_stale]

/-- FILL of bytes TXT has: the elements it names are marked no longer (R206; log 6). -/
theorem fillBytes_txt_covered {es : List (Nat × Byte)} {s : State} (hc : ∀ e ∈ es, capCovers s.par.capTxt (e.1 + 1) = true) :
    ∃ st, (∀ j, j ∈ st ↔ j ∈ s.stale ∧ memGet es j = none) ∧
      fillBytes .txt es s = .ok { s with txt := setAll es s.txt, stale := st } := by
  induction es generalizing s with
  | nil => exact ⟨s.stale, fun j => by simp, rfl⟩
  | cons e es ih =>
    obtain ⟨hfirst, hrest⟩ := List.forall_mem_cons.mp hc
    obtain ⟨st, hst, hnext⟩ :=
      ih (s := { setByte .txt e.1 e.2 s with stale := s.stale.filter fun k => decide (k ≠ e.1) }) hrest
    refine ⟨st, fun j => ?_, ?_⟩
    · rw [hst, memGet]
      by_cases hj : j = e.1
      · simp [hj]
      · simp [hj, Ne.symm hj]
    · simp only [fillBytes, hostWriteByte_txt_covered hfirst, hnext]
      rfl

section
variable {s : State} (idle : s.phase = 0b00#2)
include idle

/-- FILL on an idle block (R206, R258). -/
theorem execFill_idle {f : FillOp} {t : State} (h : runFill f s = .ok t) : exec (.fill f) s = .next t := by
  show execFill f s = _
  rw [execFill, if_pos idle, h]
  rfl

/-- DRAIN on an idle block (R206, R258). -/
theorem execDrain_idle {d : DrainOp} {t : State} (h : runDrain d s = .ok t) : exec (.drain d) s = .next t := by
  show execDrain d s = _
  rw [execDrain, if_pos idle, h]
  rfl

end

/-! ### DRAIN -/

/-- The indices a DRAIN form reads are its span (R205). -/
theorem drainIndices_eq_indicesFrom (d : DrainForm) : drainIndices d = indicesFrom (drainSpan d).1 (drainSpan d).2 := by
  cases d <;> rfl

/-- The first `n` indices as a DRAIN form (log 18). -/
theorem drainIndices_drainFirst (n : Nat) : drainIndices (drainFirst n) = indicesFrom 0 n := by
  cases n <;> rfl

/-- DRAIN of listed pixels (R206; spec/20_memory.md R62). -/
theorem drainPixels_listed {S : PixelSpace} {s : State} {a : Nat} {ps : List Pixel}
    (h : ∀ k p, ps[k]? = some p → memGet (pixelMem S s) (a + k) = some p ∧ capCovers s.par.capPix (a + k + 1) = true) :
    drainPixels S (indicesFrom a ps.length) s = .ok (ps, s) := by
  induction ps generalizing a with
  | nil => rfl
  | cons p ps ih =>
    obtain ⟨hget, hc⟩ := h 0 p rfl
    have hrest := ih (a := a + 1) fun k q hq => by
      rw [show a + 1 + k = a + (k + 1) by omega]; exact h (k + 1) q hq
    simp only [List.length_cons, indicesFrom, drainPixels, readPixel_listed hc hget, hrest]

/-- A host read of a listed byte that is not marked (U3; log 6). -/
theorem hostReadByte_listed {S : ByteSpace} {i : Nat} {s : State} {b : Byte} (hc : capCovers (byteCap S s.par) (i + 1) = true)
    (h : memGet (byteMem S s) i = some b) (hfresh : S = .txt → i ∉ s.stale) : hostReadByte S i s = .ok (b, s) := by
  have hread := readByte_listed hc h
  cases S with
  | pay => exact hread
  | txt => simp only [hostReadByte, hread, if_neg (hfresh rfl)]

/-- DRAIN of listed bytes that are not marked (R206; spec/20_memory.md R62, R67). -/
theorem drainBytes_listed {S : ByteSpace} {s : State} {a : Nat} {bs : List Byte}
    (h : ∀ k b, bs[k]? = some b → memGet (byteMem S s) (a + k) = some b ∧ capCovers (byteCap S s.par) (a + k + 1) = true ∧
      (S = .txt → a + k ∉ s.stale)) :
    drainBytes S (indicesFrom a bs.length) s = .ok (bs, s) := by
  induction bs generalizing a with
  | nil => rfl
  | cons b bs ih =>
    obtain ⟨hget, hc, hfresh⟩ := h 0 b rfl
    have hrest := ih (a := a + 1) fun k q hq => by
      rw [show a + 1 + k = a + (k + 1) by omega]; exact h (k + 1) q hq
    simp only [List.length_cons, indicesFrom, drainBytes, hostReadByte_listed hc hget hfresh, hrest]

end Sys2Proof.Machine
end

section
/-! The statements of spec/44_host_commands.md on single transactions. -/

namespace Sys2Proof.Proofs

open Machine

/-- Settles O8: the operand selects the command, whose START is ignored while busy and otherwise latches. -/
theorem startLatchesItsOperands : Obligations.StartLatchesItsOperands := by
  intro s op
  refine ⟨fun hop => ?_, fun busy => startOp_busy busy op, fun hop idle hcap => ?_⟩
  · rcases hop with rfl | rfl
    · rfl
    · rfl
  · rcases hop with rfl | rfl
    · exact execStart_encode_idle idle hcap
    · exact execStart_decode_idle idle hcap

/-- Settles O10: each register number has its arm of WR, and every number from 6 on the last one. -/
theorem registerWrites : Obligations.RegisterWrites := by
  intro s v
  refine ⟨rfl, rfl, rfl, rfl, rfl, rfl, fun reg hreg => ?_⟩
  obtain ⟨n, rfl⟩ := Nat.exists_eq_add_of_le' hreg
  rfl

/-- Settles O11: each register number has its arm of RD, STATUS being the number its three fields make. -/
theorem registerReads : Obligations.RegisterReads := by
  intro s
  refine ⟨rfl, ?_, rfl, rfl, rfl, rfl, fun reg hreg => ?_⟩
  · rw [← statusWord_toNat]; rfl
  · obtain ⟨n, rfl⟩ := Nat.exists_eq_add_of_le' hreg
    rfl

/-- Settles O13: the form's elements are written one after the other, each at an index of its own. -/
theorem fillPixelsReplacesItsElements : Obligations.FillPixelsReplacesItsElements := by
  intro s S f idle hc
  refine ⟨setAll (fillElements f) (pixelMem S s), fun j => ?_, ?_⟩
  · rw [memGet_setAll (fillElements_wf f), memGet_fillElements]
  · rw [execFill_idle (f := .pixels S f) idle (fillPixels_covered (fillElements_covered hc))]
    cases S <;> rfl

/-- Settles O14: as for pixels, and each write of a TXT element takes its mark away. -/
theorem fillBytesReplacesItsElements : Obligations.FillBytesReplacesItsElements := by
  intro s f idle
  have hget (m : Memory Byte) (j : Nat) : memGet (setAll (fillElements f) m) j = (formValue f j).or (memGet m j) := by
    rw [memGet_setAll (fillElements_wf f), memGet_fillElements]
  constructor
  · intro hc
    exact ⟨_, hget s.pay, execFill_idle (f := .bytes .pay f) idle (fillBytes_pay_covered (fillElements_covered hc))⟩
  · intro hc
    obtain ⟨st, hst, hfill⟩ := fillBytes_txt_covered (fillElements_covered hc)
    simp only [memGet_fillElements] at hst
    exact ⟨_, st, hget s.txt, hst, execFill_idle (f := .bytes .txt f) idle hfill⟩

/-- Settles O15: the elements of the span are listed and promised, so each read answers its element and draws nothing. -/
theorem drainReturnsTheElements : Obligations.DrainReturnsTheElements := by
  intro s d idle
  constructor
  · intro S ps hlen h
    refine execDrain_idle idle ?_
    simp only [runDrain, drainIndices_eq_indicesFrom, ← hlen, drainPixels_listed h]
    rfl
  · intro S bs hlen h
    refine execDrain_idle idle ?_
    simp only [runDrain, drainIndices_eq_indicesFrom, ← hlen, drainBytes_listed h]
    rfl

/-- Settles O17: a command write finds PHASE busy and is ignored, FILL and DRAIN find it and are refused. -/
theorem hostMovesWhileBusy : Obligations.HostMovesWhileBusy := by
  intro s busy
  exact ⟨if_pos busy, if_pos busy, startOp_busy busy, fun v => startOp_busy busy _, fun f => if_neg busy, fun d => if_neg busy⟩

end Sys2Proof.Proofs
end

section
/-! SUPPORT. Runs of scheduled moves (log 2): a block under another schedule, on which the engine does the same, so that a WAIT polls
through the run of the engine alone; and the loads and unloads of the pseudo-commands (spec/44_host_commands.md R207, R208). -/

namespace Sys2Proof.Machine

/-! ### Runs -/

/-- Some number of steps leads from one state to the other. -/
def Reaches (s t : State) : Prop := ∃ k, runSteps k s = .next t

/-- A step, then a run. -/
theorem Reaches.head {s t u : State} (h : step s = .next t) : Reaches t u → Reaches s u
  | ⟨k, hk⟩ => ⟨k + 1, by rw [runSteps, h]; exact hk⟩

/-- One step is a run. -/
theorem Reaches.single {s t : State} (h : step s = .next t) : Reaches s t := .head h ⟨0, rfl⟩

/-- A run that is not over yet began with a step. -/
theorem runSteps_succ {k : Nat} {s t : State} (h : runSteps (k + 1) s = .next t) :
    ∃ u, step s = .next u ∧ runSteps k u = .next t := by
  rw [runSteps] at h
  split at h
  · exact ⟨_, ‹_›, h⟩
  · cases h
  · cases h

/-- Runs compose. -/
theorem Reaches.trans {s t u : State} : Reaches s t → Reaches t u → Reaches s u := by
  rintro ⟨k, hk⟩ htu
  induction k generalizing s with
  | zero => cases hk; exact htu
  | succ k ih =>
    obtain ⟨v, hstep, hrun⟩ := runSteps_succ hk
    exact .head hstep (ih hrun)

/-- No step changes the parameters (spec/00_scope.md R18). -/
theorem step_par {s t : State} (h : step s = .next t) : t.par = s.par := by
  rcases step_cases h with ⟨-, rfl⟩ | ⟨d, -, hd⟩ | ⟨s0, hs0, hop⟩
  · rfl
  · exact (congrArg State.par (hostTest_frame hd) :)
  · have hpar : s0.par = s.par := by rcases hs0 with rfl | rfl <;> rfl
    rcases hop with rfl | ⟨i, -, hexec⟩
    · exact hpar
    · exact (Proofs.onlyFillChangesTheInputMemories i s0 t hexec).1.trans hpar

/-- No run changes the parameters. -/
theorem runSteps_par {k : Nat} {s t : State} (h : runSteps k s = .next t) : t.par = s.par := by
  induction k generalizing s with
  | zero => cases h; rfl
  | succ k ih =>
    obtain ⟨u, hstep, hrun⟩ := runSteps_succ h
    exact (ih hrun).trans (step_par hstep)

/-! ### A block under another schedule -/

/-- The block under the schedule `ms`, its host having last been given `a` (log 2, 5). -/
def withCaller (ms : List Move) (a : Answer) (s : State) : State := { s with moves := ms, answer := a }

/-- A block is under its own schedule, its host having last been given its answer. -/
theorem withCaller_of_moves {ms : List Move} {s : State} (h : s.moves = ms) : withCaller ms s.answer s = s := by
  subst h; rfl

section
variable (ms : List Move) (a : Answer) (s : State)

@[simp] theorem withCaller_par : (withCaller ms a s).par = s.par := rfl
@[simp] theorem withCaller_idx : (withCaller ms a s).idx = s.idx := rfl
@[simp] theorem withCaller_phase : (withCaller ms a s).phase = s.phase := rfl
@[simp] theorem withCaller_pixelMem (S : PixelSpace) : pixelMem S (withCaller ms a s) = pixelMem S s := by cases S <;> rfl
@[simp] theorem withCaller_byteMem (S : ByteSpace) : byteMem S (withCaller ms a s) = byteMem S s := by cases S <;> rfl

/-- MemRead of a pixel reads neither the schedule nor the answer. -/
theorem readPixel_withCaller (S : PixelSpace) (i : Nat) :
    readPixel S i (withCaller ms a s) = (readPixel S i s).map fun r => (r.1, withCaller ms a r.2) := by
  unfold readPixel
  rw [withCaller_pixelMem, withCaller_par]
  split
  · cases memGet (pixelMem S s) i <;> rfl
  · rfl

/-- FRAMEBIT reads neither the schedule nor the answer. -/
theorem frameBit_withCaller (i : Nat) :
    frameBit i (withCaller ms a s) = (frameBit i s).map fun r => (r.1, withCaller ms a r.2) := by
  have hread : readByte .pay (i / 8) (withCaller ms a s) =
      (readByte .pay (i / 8) s).map fun r => (r.1, withCaller ms a r.2) := by
    unfold readByte
    rw [withCaller_par, withCaller_byteMem]
    split
    · cases memGet (byteMem .pay s) (i / 8) <;> rfl
    · rfl
  have hnbits : (withCaller ms a s).nbits = s.nbits := rfl
  have hlenL : (withCaller ms a s).lenL = s.lenL := rfl
  unfold frameBit
  rw [hread, hnbits, hlenL]
  split
  · rfl
  · split
    · cases readByte .pay (i / 8) s <;> rfl
    · rfl

/-- MemWrite of an output pixel leaves the schedule and the answer. -/
theorem writePixel_withCaller (i : Nat) (p : Pixel) :
    writePixel .pixout i p (withCaller ms a s) = (writePixel .pixout i p s).map (withCaller ms a) := by
  unfold writePixel
  rw [withCaller_par]
  split <;> rfl

/-- What ENCODE does to a pixel depends on neither the schedule nor the answer. -/
theorem encodePixel_withCaller (i : Nat) :
    encodePixel i (withCaller ms a s) = (encodePixel i s).map (withCaller ms a) := by
  unfold encodePixel
  rw [readPixel_withCaller]
  cases readPixel .pixin i s with
  | error f => rfl
  | ok r =>
    obtain ⟨p, s1⟩ := r
    have hnbits : (withCaller ms a s).nbits = s.nbits := rfl
    simp only [Except.map, hnbits]
    split
    · rw [frameBit_withCaller]
      cases frameBit i s1 with
      | error f => rfl
      | ok r => exact writePixel_withCaller ms a r.2 i (writeBit p r.1)
    · exact writePixel_withCaller ms a s1 i p

/-- GROUP_COMPLETE depends on neither the schedule nor the answer. -/
theorem groupComplete_withCaller (v : Byte) :
    groupComplete v (withCaller ms a s) = (groupComplete v s).map (withCaller ms a) := by
  have hwrite : writeByte .txt (withCaller ms a s).ngrp v (withCaller ms a s) =
      (writeByte .txt s.ngrp v s).map (withCaller ms a) := by
    have hngrp : (withCaller ms a s).ngrp = s.ngrp := rfl
    unfold writeByte
    rw [withCaller_par, hngrp]
    split <;> rfl
  unfold groupComplete
  rw [hwrite]
  cases writeByte .txt s.ngrp v s with
  | error f => rfl
  | ok s1 =>
    by_cases h : SentinelMatch s v
    · have h' : SentinelMatch (withCaller ms a s) v := h
      simp only [Except.map, if_pos h, if_pos h']
      rfl
    · have h' : ¬SentinelMatch (withCaller ms a s) v := h
      simp only [Except.map, if_neg h, if_neg h']
      rfl

/-- What DECODE does to a pixel depends on neither the schedule nor the answer. -/
theorem decodePixel_withCaller : decodePixel (withCaller ms a s) = (decodePixel s).map (withCaller ms a) := by
  unfold decodePixel
  rw [withCaller_idx, readPixel_withCaller]
  cases readPixel .pixin s.idx s with
  | error f => rfl
  | ok r =>
    obtain ⟨p, s1⟩ := r
    have hbitcnt : (withCaller ms a s).bitcnt = s.bitcnt := rfl
    have hshreg : (withCaller ms a s).shreg = s.shreg := rfl
    simp only [Except.map, hbitcnt, hshreg]
    split
    · exact groupComplete_withCaller ms a s1 _
    · rfl

end

/-- The engine's steps are the two checks and the four arms of RUN (spec/30_encoding.md R103). -/
theorem decodeStep_ok_cases {arm : Arm} {w : BitVec 3} {i : Instr} (h : decodeStep arm w = .ok i) :
    i = .encCheck ∨ i = .decCheck ∨ i = .encStepPixel ∨ i = .encStepEnd ∨ i = .decStepPixel ∨ i = .decStepEnd := by
  unfold decodeStep at h
  split_ifs at h
  · cases h; simp
  · cases h; simp
  · cases arm <;> cases h <;> simp
  · cases arm <;> cases h <;> simp

section
variable {s t : State} (ms : List Move) (a : Answer)

/-- An engine step under another schedule does the same. -/
theorem exec_withCaller {i : Instr} (hi : fetchEngine s = .ok i) (h : exec i s = .next t) :
    exec i (withCaller ms a s) = .next (withCaller ms a t) := by
  rw [fetchEngine_eq_decodeStep] at hi
  rcases decodeStep_ok_cases hi with rfl | rfl | rfl | rfl | rfl | rfl
  · obtain ⟨hphase, hmode, ⟨e, he, rfl⟩ | ⟨he, rfl⟩⟩ := execEncCheck_cases h
    · exact execEncCheck_raises (s := withCaller ms a s) hphase hmode he
    · exact execEncCheck_passes (s := withCaller ms a s) hphase hmode he
  · obtain ⟨hphase, hmode, rfl⟩ := execDecCheck_next h
    exact execDecCheck_enabled (s := withCaller ms a s) hphase hmode
  · obtain ⟨hphase, hmode, hidx, u, hu, rfl⟩ := execEncStepPixel_next h
    refine execEncStepPixel_enabled (s := withCaller ms a s) (t := withCaller ms a u) hphase hmode hidx ?_
    rw [encodePixel_withCaller, withCaller_idx, hu]
    rfl
  · obtain ⟨hphase, hmode, hidx, rfl⟩ := execEncStepEnd_next h
    exact execEncStepEnd_enabled (s := withCaller ms a s) hphase hmode hidx
  · obtain ⟨⟨hphase, hmode, hidx⟩, ht⟩ := next_of_guarded h
    split at ht
    · cases ht
    · rename_i u hu
      have hpixel : decodePixel (withCaller ms a s) = .ok (withCaller ms a u) := by rw [decodePixel_withCaller, hu]; rfl
      refine (execDecStepPixel_enabled (s := withCaller ms a s) hphase hmode hidx hpixel).trans ?_
      rw [withCaller_phase]
      split at ht
      case isTrue hended => cases ht; rw [if_pos hended]
      case isFalse hruns => cases ht; rw [if_neg hruns]; rfl
  · obtain ⟨hphase, hmode, hidx, rfl⟩ := execDecStepEnd_next h
    exact execDecStepEnd_enabled (s := withCaller ms a s) hphase hmode hidx

/-- The engine's turn under another schedule does the same. -/
theorem engineTurn_withCaller (h : engineTurn s = .next t) : engineTurn (withCaller ms a s) = .next (withCaller ms a t) := by
  have hfetch : fetchEngine (withCaller ms a s) = fetchEngine s := rfl
  rw [engineTurn, hfetch]
  rcases perform_cases h with ⟨hidle, rfl⟩ | ⟨i, hi, hwf, hexec⟩
  · rw [hidle]; rfl
  · rw [hi, perform, withCaller_par, if_pos hwf]
    exact exec_withCaller ms a hi hexec

end

/-- The engine's turn leaves the schedule. -/
theorem engineTurn_moves {s t : State} (h : engineTurn s = .next t) : t.moves = s.moves := by
  have hsame := engineTurn_withCaller s.moves s.answer h
  rw [withCaller_of_moves rfl, h, Host.Outcome.next.injEq] at hsame
  exact (congrArg State.moves hsame :)

/-! ### The host's moves -/

section
variable {ms : List Move} {a : Answer} {s t : State}

/-- A transaction at the head of the schedule is performed, the rest of the schedule staying behind it. -/
theorem Reaches.host {op : HostOp} (h : exec (hostInstr op) (withCaller ms a s) = .next t)
    (hwf : wellFormed s.par (hostInstr op) = true := by rfl) : Reaches (withCaller (.host op :: ms) a s) t := by
  refine .single ?_
  show perform (.ok (hostInstr op)) (withCaller ms a s) = .next t
  rw [perform, withCaller_par, if_pos hwf, h]

/-- A decision at the head of the schedule is taken. -/
theorem Reaches.test {d : HostTest} (h : hostTest d (withCaller ms a s) = .next t) :
    Reaches (withCaller (.test d :: ms) a s) t :=
  .single h

/-- A WAIT polls until the engine, left alone, would have ended the command, and gives its STATUS (R204; log 2). -/
theorem Reaches.wait {k : Nat} (hmoves : s.moves = []) (hrun : runSteps k s = .next t) (idle : t.phase = 0b00#2) :
    Reaches (withCaller (.host .wait :: ms) a s) (withCaller ms (.value (statusWord t).toNat) t) := by
  have last {a : Answer} {s : State} (hs : s.phase = 0b00#2) :
      Reaches (withCaller (.host .wait :: ms) a s) (withCaller ms (.value (statusWord s).toNat) s) := by
    refine .host ?_
    show execWait (withCaller ms a s) = _
    exact if_pos hs
  induction k generalizing s a with
  | zero => cases hrun; exact last idle
  | succ k ih =>
    by_cases hs : s.phase = 0b00#2
    · obtain rfl : s = t := by simpa [runSteps_idle hs hmoves] using hrun
      exact last hs
    obtain ⟨u, hstep, hrest⟩ := runSteps_succ hrun
    rw [step_unscheduled hmoves] at hstep
    have poll : Reaches (withCaller (.host .wait :: ms) a s)
        (withCaller (.engine :: .host .wait :: ms) (.value (statusWord s).toNat) s) := by
      refine .host ?_
      show execWait (withCaller ms a s) = _
      exact if_neg hs
    have turn : Reaches (withCaller (.engine :: .host .wait :: ms) (.value (statusWord s).toNat) s)
        (withCaller (.host .wait :: ms) (.value (statusWord s).toNat) u) :=
      .single ((step_scheduled rfl).trans (engineTurn_withCaller (s := s) (.host .wait :: ms) _ hstep))
    exact poll.trans (turn.trans (ih ((engineTurn_moves hstep).trans hmoves) hrest))

/-- A command started by its word on CMD, waited for and asked for its STATUS, ends as the engine, left alone, ends it. -/
theorem Reaches.command {v k : Nat} {m : BitVec 1} (hv : startOp (BitVec.ofNat 2 v) = startCommand m)
    (hs : s.phase = 0b00#2) (hcap : capacitiesCover m s = true) (hmoves : s.moves = [])
    (hrun : runSteps k (latch m s) = .next t) (ht : t.phase = 0b00#2) :
    Reaches (withCaller (.host (.wr 0 v) :: .host .wait :: .host (.rd 1) :: ms) a s)
      (withCaller ms (.value (statusWord t).toNat) t) := by
  have start : Reaches (withCaller (.host (.wr 0 v) :: .host .wait :: .host (.rd 1) :: ms) a s)
      (withCaller (.host .wait :: .host (.rd 1) :: ms) a (latch m s)) := by
    refine .host ?_
    show startOp (BitVec.ofNat 2 v) _ = _
    rw [hv]
    exact (if_neg (not_not.mpr hs)).trans (if_pos hcap)
  have ask : Reaches (withCaller (.host (.rd 1) :: ms) (.value (statusWord t).toNat) t)
      (withCaller ms (.value (statusWord t).toNat) t) := .host rfl
  exact start.trans ((Reaches.wait (s := latch m s) hmoves hrun ht).trans ask)

/-- The host writes WIDTH with a value that fits (R201). -/
theorem Reaches.writeWidth {w : Nat} (hw : w < 2 ^ s.par.dimw) :
    Reaches (withCaller (.host (.wr 2 w) :: ms) a s) (withCaller ms a { s with width := w }) := by
  refine .host ?_
  show Host.Outcome.next (withCaller ms a { s with width := w % 2 ^ s.par.dimw }) = _
  rw [Nat.mod_eq_of_lt hw]

/-- The host writes HEIGHT with a value that fits (R201). -/
theorem Reaches.writeHeight {h : Nat} (hh : h < 2 ^ s.par.dimw) :
    Reaches (withCaller (.host (.wr 3 h) :: ms) a s) (withCaller ms a { s with height := h }) := by
  refine .host ?_
  show Host.Outcome.next (withCaller ms a { s with height := h % 2 ^ s.par.dimw }) = _
  rw [Nat.mod_eq_of_lt hh]

/-- The host writes LEN with a value that fits (R201). -/
theorem Reaches.writeLen {n : Nat} (hn : n < 2 ^ s.par.lenw) :
    Reaches (withCaller (.host (.wr 4 n) :: ms) a s) (withCaller ms a { s with len := n }) := by
  refine .host ?_
  show Host.Outcome.next (withCaller ms a { s with len := n % 2 ^ s.par.lenw }) = _
  rw [Nat.mod_eq_of_lt hn]

/-- The host fills PIXIN with a grid (R206). -/
theorem Reaches.fillPixin {g : List Pixel} (idle : s.phase = 0b00#2) (hc : capCovers s.par.capPix g.length = true)
    (hfit : ∀ p ∈ g, p.Fits s.par) : Reaches (withCaller (.host (.fill (.pixels .pixin (.list 0 g))) :: ms) a s)
      (withCaller ms a { s with pixin := setAll (placeFrom 0 g) s.pixin }) :=
  .host (execFill_idle (f := .pixels .pixin (.list 0 g)) (s := withCaller ms a s) idle
    (fillPixels_covered (S := .pixin) (placeFrom_covered hc))) (by simpa [hostInstr, wellFormed, fillPixelsFit] using hfit)

/-- The host fills PAY with a payload (R206). -/
theorem Reaches.fillPay {l : List Byte} (idle : s.phase = 0b00#2) (hc : capCovers s.par.capPay l.length = true) :
    Reaches (withCaller (.host (.fill (.bytes .pay (.list 0 l))) :: ms) a s)
      (withCaller ms a { s with pay := setAll (placeFrom 0 l) s.pay }) :=
  .host (execFill_idle (f := .bytes .pay (.list 0 l)) (s := withCaller ms a s) idle
    (fillBytes_pay_covered (placeFrom_covered hc)))

/-- The host drains a grid from PIXOUT (R206). -/
theorem Reaches.drainPixout {g : List Pixel} (idle : s.phase = 0b00#2) (hg : Holds s.pixout g)
    (hc : capCovers s.par.capPix g.length = true) :
    Reaches (withCaller (.host (.drain (.pixels .pixout (drainFirst g.length))) :: ms) a s) (withCaller ms (.pixels g) s) := by
  refine .host (execDrain_idle (s := withCaller ms a s) idle ?_)
  have hdrain : drainPixels .pixout (indicesFrom 0 g.length) (withCaller ms a s) = .ok (g, withCaller ms a s) :=
    drainPixels_listed fun k p hp => by
      have hk : k < g.length := (List.getElem?_eq_some_iff.mp hp).1
      rw [Nat.zero_add]
      exact ⟨hg k p hp, capCovers_mono hc hk⟩
  simp only [runDrain, drainIndices_drainFirst, hdrain]
  rfl

/-- The host drains a text from TXT, no byte of which is marked stale (R206; log 6). -/
theorem Reaches.drainTxt {r : List Byte} (idle : s.phase = 0b00#2) (hr : Holds s.txt r) (hfresh : ∀ k < r.length, k ∉ s.stale)
    (hc : capCovers s.par.capTxt r.length = true) :
    Reaches (withCaller (.host (.drain (.bytes .txt (drainFirst r.length))) :: ms) a s) (withCaller ms (.bytes r) s) := by
  refine .host (execDrain_idle (s := withCaller ms a s) idle ?_)
  have hdrain : drainBytes .txt (indicesFrom 0 r.length) (withCaller ms a s) = .ok (r, withCaller ms a s) :=
    drainBytes_listed fun k b hb => by
      have hk : k < r.length := (List.getElem?_eq_some_iff.mp hb).1
      rw [Nat.zero_add]
      exact ⟨hr k b hb, capCovers_mono hc hk, fun _ => hfresh k hk⟩
  simp only [runDrain, drainIndices_drainFirst, hdrain]
  rfl

end

/-! ### The host's decisions -/

/-- ERR is the high field of the status word (spec/10_state.md R23). -/
theorem extractLsb'_statusWord (s : State) : (statusWord s).extractLsb' 2 2 = s.err := by
  have high (e : BitVec 2) (d b : BitVec 1) : (e ++ d ++ b).extractLsb' 2 2 = e := by revert e d b; decide
  exact high _ _ _

/-- The host reads ERR off the STATUS value it was given (R23). -/
theorem errField_statusWord (s : State) : errField (statusWord s).toNat = s.err := by
  rw [errField, BitVec.ofNat_toNat, BitVec.setWidth_eq, extractLsb'_statusWord]

section
variable {ms : List Move} {s : State}

/-- `encode` ends with the error of a STATUS whose ERR is not 00 (R207). -/
theorem Reaches.encodeError (w h : Nat) (herr : s.err ≠ 0b00#2) :
    Reaches (withCaller (.test (.encodeResult w h) :: ms) (.value (statusWord s).toNat) s) (withCaller ms (.error s.err) s) := by
  refine .test ?_
  show (if errField (statusWord s).toNat = 0b00#2 then _ else _) = _
  rw [errField_statusWord, if_neg herr]
  rfl

/-- `encode` unloads the grid where ERR is 00 (R207). -/
theorem Reaches.encodeGrid {w h : Nat} {g : List Pixel} (herr : s.err = 0b00#2) (idle : s.phase = 0b00#2)
    (hlen : g.length = w * h) (hg : Holds s.pixout g) (hc : capCovers s.par.capPix (w * h) = true) :
    Reaches (withCaller (.test (.encodeResult w h) :: ms) (.value (statusWord s).toNat) s) (withCaller ms (.pixels g) s) := by
  have unload : Reaches (withCaller (.test (.encodeResult w h) :: ms) (.value (statusWord s).toNat) s)
      (withCaller (.host (.drain (.pixels .pixout (drainFirst g.length))) :: ms) (.value (statusWord s).toNat) s) := by
    refine .test ?_
    show (if errField (statusWord s).toNat = 0b00#2 then _ else _) = _
    rw [errField_statusWord, if_pos herr, hlen]
    rfl
  exact unload.trans (.drainPixout idle hg (hlen ▸ hc))

/-- `decode` ends with NotFound where ERR is not 00 (R208). -/
theorem Reaches.decodeError (herr : s.err ≠ 0b00#2) :
    Reaches (withCaller (.test .decodeResult :: ms) (.value (statusWord s).toNat) s) (withCaller ms (.error 0b11#2) s) := by
  refine .test ?_
  show (if errField (statusWord s).toNat = 0b00#2 then _ else _) = _
  rw [errField_statusWord, if_neg herr]
  rfl

/-- `decode` asks for OUT_LEN and unloads the characters of the text where ERR is 00 (R208). -/
theorem Reaches.decodeText {r : List Byte} (herr : s.err = 0b00#2) (idle : s.phase = 0b00#2) (hlen : s.outLen = r.length)
    (hr : Holds s.txt r) (hfresh : ∀ k < r.length, k ∉ s.stale) (hc : capCovers s.par.capTxt r.length = true) :
    Reaches (withCaller (.test .decodeResult :: ms) (.value (statusWord s).toNat) s)
      (withCaller ms (.chars (r.map byteChar)) s) := by
  have ask : Reaches (withCaller (.test .decodeResult :: ms) (.value (statusWord s).toNat) s)
      (withCaller (.host (.rd 5) :: .test .decodeText :: ms) (.value (statusWord s).toNat) s) := by
    refine .test ?_
    show (if errField (statusWord s).toNat = 0b00#2 then _ else _) = _
    rw [errField_statusWord, if_pos herr]
    rfl
  have length : Reaches (withCaller (.host (.rd 5) :: .test .decodeText :: ms) (.value (statusWord s).toNat) s)
      (withCaller (.test .decodeText :: ms) (.value r.length) s) := by
    rw [← hlen]
    exact .host rfl
  have unload : Reaches (withCaller (.test .decodeText :: ms) (.value r.length) s)
      (withCaller (.host (.drain (.bytes .txt (drainFirst r.length))) :: .test .decodeChars :: ms) (.value r.length) s) :=
    .test rfl
  exact ask.trans (length.trans (unload.trans ((Reaches.drainTxt idle hr hfresh hc).trans (.test rfl))))

end

/-! ### The grid ENCODE leaves -/

/-- ENCODE of valid operands over a written carrier and payload leaves the embedded carrier in PIXOUT (spec/42_encoder.md R163). -/
theorem execEncode_loaded {s : State} {t : List Byte} {g : List Pixel} (idle : s.phase = 0b00#2)
    (hcap : capacitiesCover 0#1 s = true) (hload : CarrierLoaded (latch 0#1 s) t g) (hgrid : g.length = s.width * s.height)
    (hvalid : encodeVerdict (latch 0#1 s) = none) :
    ∃ m, exec .encode s = .next (completeOk { latch 0#1 s with pixout := m }) ∧ Holds m (g.mapIdx (embedBit (frame t))) := by
  obtain ⟨m, hpass, hwritten, -⟩ := encodePass_loaded (i := 0) (n := s.width * s.height) hload (by omega)
  refine ⟨m, execEncode_idle idle hcap (runEncode_passes hvalid hpass), fun k q hq => ?_⟩
  rw [List.getElem?_mapIdx, Option.map_eq_some_iff] at hq
  obtain ⟨p, hp, rfl⟩ := hq
  have hk : k < g.length := (List.getElem?_eq_some_iff.mp hp).1
  exact hwritten k p (Nat.zero_le k) (by omega) hp

/-! ### The calls up to the host's first decision -/

/-- A block, with nothing scheduled, that holds the operands of an `encode` (R207). -/
def loadEncode (carrier : List Pixel) (w h : Nat) (text : List Nat) (s : State) : State :=
  { s with
    width := w, height := h, len := text.length
    pay := setAll (placeFrom 0 (text.map charByte)) s.pay, pixin := setAll (placeFrom 0 carrier) s.pixin
    moves := [] }

/-- A block, with nothing scheduled, that holds the operands of a `decode` (R208). -/
def loadDecode (grid : List Pixel) (w h : Nat) (s : State) : State :=
  { s with width := w, height := h, pixin := setAll (placeFrom 0 grid) s.pixin, moves := [] }

section
variable {s : State} {rest : List Move} {a : Answer} {grid : List Pixel} {w h : Nat}
  (idle : s.phase = 0b00#2) (hw : w < 2 ^ s.par.dimw) (hh : h < 2 ^ s.par.dimw) (hlen : grid.length = w * h)
  (hfit : ∀ p ∈ grid, p.Fits s.par) (hpix : capCovers s.par.capPix (w * h) = true)
include idle hw hh hlen hfit hpix

/-- The moves of `encode` up to its decision load the operands and end as ENCODE of them does: the engine's steps reach what the
whole command gives (R207; spec/42_encoder.md R170). -/
theorem encodeCall_reaches_decision {text : List Nat} (hn : text.length < 2 ^ s.par.lenw)
    (hpay : capCovers s.par.capPay text.length = true) :
    ∃ t u, exec .encode (loadEncode grid w h text s) = .next t ∧ u.phase = 0b00#2 ∧ u.par = s.par ∧ u.err = t.err ∧
      u.pixout = t.pixout ∧ Reaches (withCaller (encodeCall grid w h text ++ rest) a s)
        (withCaller (.test (.encodeResult w h) :: rest) (.value (statusWord u).toNat) u) := by
  have hload : Reaches (withCaller (encodeCall grid w h text ++ rest) a s)
      (withCaller (.host (.wr 0 1) :: .host .wait :: .host (.rd 1) :: .test (.encodeResult w h) :: rest) a
        (loadEncode grid w h text s)) := by
    refine .trans (.writeWidth ?_) (.trans (.writeHeight ?_) (.trans (.writeLen ?_)
      (.trans (.fillPay ?_ ?_) (.fillPixin ?_ ?_ ?_))))
    · exact hw
    · exact hh
    · exact hn
    · exact idle
    · rwa [List.length_map]
    · exact idle
    · rwa [hlen]
    · exact hfit
  have idle' : (loadEncode grid w h text s).phase = 0b00#2 := idle
  have hcap : capacitiesCover 0#1 (loadEncode grid w h text s) = true := capacitiesCover_encode.mpr ⟨hpix, hpay⟩
  obtain ⟨s1, t, u, hstart, hexec, hrun, hu, -, herr, -, -, -, hpixout, -⟩ :=
    Proofs.encodeStepsAgreeWithTheCommand _ idle' rfl hcap
  rw [execStart_encode_idle idle' hcap, Host.Outcome.next.injEq] at hstart
  rw [← hstart] at hrun
  have hpar : u.par = s.par := (runSteps_par hrun :)
  exact ⟨t, u, hexec, hu, hpar, herr, hpixout, hload.trans (.command rfl idle' hcap rfl hrun hu)⟩

/-- The moves of `decode` up to its first decision load the operands and end as DECODE of them does: the engine's steps reach what
the whole command gives (R208; spec/43_decoder.md R190). -/
theorem decodeCall_reaches_decision (htxt : capCovers s.par.capTxt (w * h / 8) = true) :
    ∃ t u, exec .decode (loadDecode grid w h s) = .next t ∧ u.phase = 0b00#2 ∧ u.par = s.par ∧ u.err = t.err ∧
      u.outLen = t.outLen ∧ (∀ k < t.outLen, memGet u.txt k = memGet t.txt k ∧ k ∉ u.stale) ∧
      Reaches (withCaller (decodeCall grid w h ++ rest) a s)
        (withCaller (.test .decodeResult :: rest) (.value (statusWord u).toNat) u) := by
  have hload : Reaches (withCaller (decodeCall grid w h ++ rest) a s)
      (withCaller (.host (.wr 0 2) :: .host .wait :: .host (.rd 1) :: .test .decodeResult :: rest) a
        (loadDecode grid w h s)) := by
    refine .trans (.writeWidth ?_) (.trans (.writeHeight ?_) (.fillPixin ?_ ?_ ?_))
    · exact hw
    · exact hh
    · exact idle
    · rwa [hlen]
    · exact hfit
  have idle' : (loadDecode grid w h s).phase = 0b00#2 := idle
  have hcap : capacitiesCover 1#1 (loadDecode grid w h s) = true := capacitiesCover_decode.mpr ⟨hpix, htxt⟩
  obtain ⟨s1, t, u, hstart, hexec, hrun, hu, -, herr, -, hout, -, -, -, htext⟩ :=
    Proofs.decodeStepsAgreeWithTheCommand _ idle' rfl hcap
  rw [execStart_decode_idle idle' hcap, Host.Outcome.next.injEq] at hstart
  rw [← hstart] at hrun
  have hpar : u.par = s.par := (runSteps_par hrun :)
  refine ⟨t, u, hexec, hu, hpar, herr, hout, fun k hk => ?_, hload.trans (.command rfl idle' hcap rfl hrun hu)⟩
  obtain ⟨hget, hfresh, -⟩ := htext k hk
  exact ⟨hget, hfresh⟩

end

end Sys2Proof.Machine
end

section
/-! The statements of spec/44_host_commands.md on the pseudo-commands. -/

namespace Sys2Proof.Proofs

open Machine

/-- Settles O54: the host's decision follows the verdict on the loaded operands, and where that is no error it unloads the grid that
ENCODE has embedded. -/
theorem encodeCallReturnsTheGridOrTheError : Obligations.EncodeCallReturnsTheGridOrTheError := by
  intro s rest carrier w h text idle hmoves hw hh hn hlen hfit hpix hpay
  obtain ⟨t, u, hexec, hu, hpar, herr, hpixout, hrun⟩ :=
    encodeCall_reaches_decision (rest := rest) (a := s.answer) idle hw hh hlen hfit hpix hn hpay
  rw [withCaller_of_moves hmoves] at hrun
  have idle' : (loadEncode carrier w h text s).phase = 0b00#2 := idle
  have hcap : capacitiesCover 0#1 (loadEncode carrier w h text s) = true := capacitiesCover_encode.mpr ⟨hpix, hpay⟩
  have raised {e : ErrorKind} (he : encodeVerdict (latch 0#1 (loadEncode carrier w h text s)) = some e) :
      Reaches s (withCaller rest (.error (errCode e)) u) := by
    rw [execEncode_idle idle' hcap (runEncode_raises he), Host.Outcome.next.injEq] at hexec
    have huerr : u.err = errCode e := herr.trans (hexec ▸ rfl)
    rw [← huerr]
    exact hrun.trans (.encodeError w h (by rw [huerr]; cases e <;> decide))
  by_cases hzero : text.length = 0 ∨ w = 0 ∨ h = 0
  · obtain ⟨k, hk⟩ := raised (encodeVerdict_invalid hzero)
    exact ⟨k, _, hk, hu, rfl, fun _ => rfl, fun hl hw0 hh0 => absurd hzero (by simp [hl, hw0, hh0]),
      fun hl hw0 hh0 => absurd hzero (by simp [hl, hw0, hh0])⟩
  rcases Nat.lt_or_ge (w * h) (8 * text.length + 16) with hover | hroom
  · obtain ⟨k, hk⟩ := raised (encodeVerdict_exceeded hzero hover)
    exact ⟨k, _, hk, hu, rfl, fun hz => absurd hz hzero, fun _ _ _ _ => rfl, fun _ _ _ hr => absurd hover (Nat.not_lt.mpr hr)⟩
  · have hload : CarrierLoaded (latch 0#1 (loadEncode carrier w h text s)) (text.map charByte) carrier :=
      ⟨List.length_map _ |>.symm, rfl, holds_setAll_placeFrom _ _, hpay, holds_setAll_placeFrom _ _, hlen ▸ hpix⟩
    obtain ⟨m, hexec', hm⟩ := execEncode_loaded idle' hcap hload hlen (encodeVerdict_valid hzero hroom)
    rw [hexec', Host.Outcome.next.injEq] at hexec
    subst hexec
    have hg : Holds u.pixout (carrier.mapIdx (embedBit (frame (text.map charByte)))) := hpixout ▸ hm
    obtain ⟨k, hk⟩ := hrun.trans (.encodeGrid herr hu (by rwa [List.length_mapIdx]) hg (by rwa [hpar]))
    refine ⟨k, _, hk, hu, rfl, fun hz => absurd hz hzero, fun _ _ _ hover => absurd hover (Nat.not_lt.mpr hroom),
      fun _ _ _ _ => ⟨_, rfl, by rwa [List.length_mapIdx], fun i p hp => ?_⟩⟩
    exact ⟨_, by rw [List.getElem?_mapIdx, hp]; rfl, embeddedPixel_embedBit _ i p⟩

/-- Settles O55: the host's decisions follow what UNFRAME finds in the loaded grid, and a text found is unloaded byte by byte. -/
theorem decodeCallReturnsTheTextOrNotFound : Obligations.DecodeCallReturnsTheTextOrNotFound := by
  intro s rest grid w h idle hmoves hw hh hlen hfit hpix htxt
  obtain ⟨t, u, hexec, hu, hpar, herr, hout, htext, hrun⟩ :=
    decodeCall_reaches_decision (rest := rest) (a := s.answer) idle hw hh hlen hfit hpix htxt
  rw [withCaller_of_moves hmoves] at hrun
  have idle' : (loadDecode grid w h s).phase = 0b00#2 := idle
  have hcap : capacitiesCover 1#1 (loadDecode grid w h s) = true := capacitiesCover_decode.mpr ⟨hpix, htxt⟩
  rw [execDecode_filled idle' hcap hlen (holds_setAll_placeFrom _ _), Host.Outcome.next.injEq] at hexec
  subst hexec
  cases hr : unframe (grid.map readBit) with
  | none =>
    rw [hr] at herr
    have hbad : u.err = 0b11#2 := herr
    obtain ⟨k, hk⟩ := hrun.trans (.decodeError (by rw [hbad]; decide))
    exact ⟨k, _, hk, hu, rfl, nofun, fun _ => rfl⟩
  | some r =>
    rw [hr] at herr hout htext
    have hheld : Holds u.txt r := fun k v hv => by
      rw [(htext k (List.getElem?_eq_some_iff.mp hv).1).1]; exact holds_putText r _ k v hv
    have hroom : capCovers u.par.capTxt r.length = true := by
      have hshort := length_of_unframe hr
      rw [List.length_map, hlen] at hshort
      rw [hpar]; exact capCovers_mono htxt (by omega)
    obtain ⟨k, hk⟩ := hrun.trans (.decodeText herr hu hout hheld (fun k hk => (htext k hk).2) hroom)
    refine ⟨k, _, hk, hu, rfl, fun r' hr' => ?_, nofun⟩
    obtain rfl : r = r' := Option.some.inj hr'
    rfl

end Sys2Proof.Proofs
end

section
/-! SUPPORT. That every step keeps the four memories canonical (spec/20_memory.md section 1), what the head of the schedule makes a
step do (log 2), and the reads whose value the spec leaves open (U1, U3). -/

namespace Sys2Proof.Machine

/-! ### The canonical form -/

/-- The canonical form is a matter of the storage alone. -/
theorem canonical_of_storage_eq {s t : State} (hs : MemoriesCanonical s) (h : t.storage = s.storage) : MemoriesCanonical t := by
  obtain ⟨-, hpixin, hpixout, hpay, htxt⟩ := storage_eq_iff.mp h
  exact ⟨hpixin ▸ hs.pixin, hpixout ▸ hs.pixout, hpay ▸ hs.pay, htxt ▸ hs.txt⟩

theorem runEncode_canonical {s t : State} (hs : MemoriesCanonical s) (h : runEncode s = .ok t) : MemoriesCanonical t := by
  unfold runEncode at h
  split at h
  · cases h; exact canonical_of_storage_eq hs rfl
  · split at h
    · rename_i u hpass; cases h; exact canonical_of_storage_eq (encodePass_canonical hs hpass) rfl
    · cases h

theorem runDecode_canonical {s t : State} (hs : MemoriesCanonical s) (h : runDecode s = .ok t) : MemoriesCanonical t := by
  unfold runDecode at h
  split at h
  · cases h
  · rename_i bits u hread
    have hu : MemoriesCanonical u := canonical_of_storage_eq hs (congrArg State.storage (readBits_frame hread).1 :)
    split at h
    · cases h; exact canonical_of_storage_eq hu rfl
    · split at h
      · cases h
      · rename_i w htext; cases h; exact canonical_of_storage_eq (writeText_canonical hu htext) rfl

/-- ENCODE, ignored or run, keeps the memories canonical. -/
theorem execEncode_canonical {s t : State} (hs : MemoriesCanonical s) (h : execEncode s = .next t) : MemoriesCanonical t := by
  unfold execEncode at h
  split at h
  · cases h; exact hs
  · have hlatch : MemoriesCanonical (latch 0#1 s) := canonical_of_storage_eq hs rfl
    exact runEncode_canonical hlatch (toOutcome_eq_next.mp (next_of_guarded h).2)

/-- DECODE, ignored or run, keeps the memories canonical. -/
theorem execDecode_canonical {s t : State} (hs : MemoriesCanonical s) (h : execDecode s = .next t) : MemoriesCanonical t := by
  unfold execDecode at h
  split at h
  · cases h; exact hs
  · have hlatch : MemoriesCanonical (latch 1#1 s) := canonical_of_storage_eq hs rfl
    exact runDecode_canonical hlatch (toOutcome_eq_next.mp (next_of_guarded h).2)

theorem groupComplete_canonical {v : Byte} {s t : State} (hs : MemoriesCanonical s) (h : groupComplete v s = .ok t) :
    MemoriesCanonical t := by
  have hset := setByte_canonical hs .txt s.ngrp v
  rcases groupComplete_cases h with ⟨-, rfl⟩ | ⟨-, rfl⟩
  · exact canonical_of_storage_eq hset rfl
  · exact canonical_of_storage_eq hset rfl

theorem decodePixel_canonical {s t : State} (hs : MemoriesCanonical s) (h : decodePixel s = .ok t) : MemoriesCanonical t := by
  obtain ⟨p, n, -, ⟨-, hgroup⟩ | ⟨-, rfl⟩⟩ := decodePixel_shift_or_group h
  · have hdrawn : MemoriesCanonical { s with draws := n } := canonical_of_storage_eq hs rfl
    exact groupComplete_canonical hdrawn hgroup
  · exact canonical_of_storage_eq hs rfl

/-- DEC_STEP's pixel arm, completing or not, keeps the memories canonical (spec/43_decoder.md R187, R188). -/
theorem execDecStepPixel_canonical {s t : State} (hs : MemoriesCanonical s) (h : execDecStepPixel s = .next t) :
    MemoriesCanonical t := by
  have ht := (next_of_guarded h).2
  split at ht
  · cases ht
  · rename_i u hpixel
    have hu := decodePixel_canonical hs hpixel
    split at ht
    · cases ht; exact hu
    · cases ht; exact canonical_of_storage_eq hu rfl

theorem execFill_canonical {f : FillOp} {s t : State} (hs : MemoriesCanonical s) (h : execFill f s = .next t) :
    MemoriesCanonical t := by
  have hrun := toOutcome_eq_next.mp (next_of_guarded h).2
  cases f with
  | pixels S f => exact fillPixels_canonical hs hrun
  | bytes S f => exact fillBytes_canonical hs hrun

/-- Every operation keeps the memories canonical: of the four effects it can have on them, each writes element by element. -/
theorem exec_canonical {i : Instr} {s t : State} (hs : MemoriesCanonical s) (h : exec i s = .next t) : MemoriesCanonical t := by
  cases exec_storageEffect h with
  | kept hst => exact canonical_of_storage_eq hs hst
  | embedded hop =>
    rcases hop with rfl | rfl
    · exact execEncode_canonical hs h
    · obtain ⟨-, -, -, u, hu, rfl⟩ := execEncStepPixel_next h
      exact canonical_of_storage_eq (encodePixel_canonical hs hu) rfl
  | extracted hop =>
    rcases hop with rfl | rfl
    · exact execDecode_canonical hs h
    · exact execDecStepPixel_canonical hs h
  | filled f hop => subst hop; exact execFill_canonical hs h

/-- Every step keeps the memories canonical: a reset empties two of them, a host's decision leaves them, an operation keeps them. -/
theorem step_canonical {s t : State} (hs : MemoriesCanonical s) (h : step s = .next t) : MemoriesCanonical t := by
  have hpop : MemoriesCanonical (popMove s) := canonical_of_storage_eq hs rfl
  rcases step_cases h with ⟨-, rfl⟩ | ⟨d, -, hd⟩ | ⟨s0, hs0, hop⟩
  · exact assertReset_canonical hpop
  · exact canonical_of_storage_eq hpop (congrArg State.storage (hostTest_frame hd) :)
  · have h0 : MemoriesCanonical s0 := by
      rcases hs0 with rfl | rfl
      · exact hs
      · exact hpop
    rcases hop with rfl | ⟨i, -, hexec⟩
    · exact h0
    · exact exec_canonical h0 hexec

/-! ### Reads whose value the spec leaves open -/

/-- MemRead of an unlisted byte within the capacity draws (U1). -/
theorem readByte_unlisted {S : ByteSpace} {i : Nat} {s : State} (hc : capCovers (byteCap S s.par) (i + 1) = true)
    (h : memGet (byteMem S s) i = none) : readByte S i s = .ok (drawByte s) := by
  simp only [readByte, hc, h, if_true]

/-- A host read of a byte that nothing has written, or of a stale TXT byte, draws (U1, U3; log 6). -/
theorem hostReadByte_open {S : ByteSpace} {i : Nat} {s : State} (hc : capCovers (byteCap S s.par) (i + 1) = true)
    (h : memGet (byteMem S s) i = none ∨ (S = .txt ∧ i ∈ s.stale)) : hostReadByte S i s = .ok (drawByte s) := by
  cases S with
  | pay => exact readByte_unlisted hc (h.resolve_right (by simp))
  | txt =>
    obtain ⟨b, t, hread⟩ := readByte_total .txt hc
    by_cases hstale : i ∈ s.stale
    · simp only [hostReadByte, hread, if_pos hstale]
    · have hunlisted := h.resolve_right (not_and_of_not_right _ hstale)
      simp only [hostReadByte, readByte_unlisted hc hunlisted, if_neg hstale]

/-! ### Single moves -/

/-- Performing a well-formed operation is running it. -/
theorem perform_wellFormed {i : Instr} {s : State} (h : wellFormed s.par i = true) : perform (.ok i) s = exec i s := if_pos h

/-- Taking the head of a schedule away leaves the rest. -/
theorem popMove_of_moves {s : State} {m : Move} {ms : List Move} (h : s.moves = m :: ms) : popMove s = { s with moves := ms } := by
  rw [popMove, h]; rfl

/-- A move that is neither a reset nor a host's decision performs what it fetches (log 2). -/
theorem step_fetched {s : State} {m : Move} {ms : List Move} (h : s.moves = m :: ms) (hreset : m ≠ .reset)
    (htest : ∀ d, m ≠ .test d) : step s = perform (fetchMove m s) { s with moves := ms } := by
  rw [← popMove_of_moves h]
  cases m with
  | reset => exact absurd rfl hreset
  | test d => exact absurd rfl (htest d)
  | engine | host _ | call _ => simp only [step, takeMove, h, List.head?_cons]

/-- A host's decision at the head of the schedule is taken (log 2). -/
theorem step_test {s : State} {d : HostTest} {ms : List Move} (h : s.moves = .test d :: ms) :
    step s = hostTest d { s with moves := ms } := by
  rw [← popMove_of_moves h]
  simp only [step, takeMove, h, List.head?_cons]

/-! ### Reset -/

/-- A reset at the head of the schedule is taken (spec/70_reset_and_hazards.md R250). -/
theorem step_reset {s : State} {ms : List Move} (h : s.moves = .reset :: ms) : step s = .next (assertReset { s with moves := ms }) := by
  rw [← popMove_of_moves h]
  simp only [step, takeMove, h, List.head?_cons]

/-- STATUS after reset (spec/10_state.md R37, R250). -/
theorem statusWord_assertReset (s : State) : statusWord (assertReset s) = 0b0000#4 := by
  simp [statusWord, busyBit]

end Sys2Proof.Machine
end

section
/-! The statements on the moves of the schedule, reset among them, on reads of open value, on stops and on the canonical form. -/

namespace Sys2Proof.Proofs

open Machine

/-- Settles O58: of the moves a step can make none breaks the canonical form. -/
theorem stepKeepsMemoriesCanonical : Obligations.StepKeepsMemoriesCanonical :=
  fun _ _ hs h => step_canonical hs h

/-- Settles O4: the schedule's head says what is fetched, and a well-formed operation that is fetched is run. -/
theorem stepRunsTheSelectedOperation : Obligations.StepRunsTheSelectedOperation := by
  intro s ms
  refine ⟨fun i hmoves hfetch hwf => ?_, fun i hmoves hfetch hwf => ?_, fun op hmoves hwf => ?_, fun w i hmoves hdecode hwf => ?_,
    fun d hmoves => step_test hmoves, fun hmoves hfetch => ?_, fun hmoves hfetch => ?_⟩
  · rw [step_unscheduled hmoves, engineTurn, hfetch, perform_wellFormed hwf]
  · have hturn : fetchMove .engine s = .ok i := hfetch
    rw [step_fetched hmoves (by simp) (by simp), hturn]
    exact perform_wellFormed hwf
  · rw [step_fetched hmoves (by simp) (by simp)]
    exact perform_wellFormed hwf
  · have hcall : fetchMove (.call w) s = .ok i := by simp only [fetchMove, fetchWord, hdecode]
    rw [step_fetched hmoves (by simp) (by simp), hcall]
    exact perform_wellFormed hwf
  · rw [step_unscheduled hmoves, engineTurn, hfetch]; rfl
  · have hturn : fetchMove .engine s = .error .idle := hfetch
    rw [step_fetched hmoves (by simp) (by simp), hturn]; rfl

/-- Settles O6: the step is the reset event, which writes the values of R37 and empties PIXOUT and TXT. -/
theorem resetEventEndsTheCommandWithoutOutcome : Obligations.ResetEventEndsTheCommandWithoutOutcome := by
  intro s ms hmoves
  exact ⟨_, step_reset hmoves, rfl, statusWord_assertReset _, rfl, rfl, rfl, rfl, rfl, rfl, fun _ => ⟨rfl, rfl⟩, rfl, rfl⟩

/-- Settles O12: WAIT reads STATUS, and BUSY decides whether an engine turn and another WAIT go before the rest. -/
theorem waitPollsStatus : Obligations.WaitPollsStatus :=
  fun _ => ⟨fun idle => if_pos idle, fun busy => if_neg busy⟩

/-- Settles O16: the read of an element nothing has written, or of a stale one, is a draw, and so is FRAMEBIT's bit past the frame. -/
theorem openValuesAreFreeAndNothingStops : Obligations.OpenValuesAreFreeAndNothingStops := by
  intro s i
  refine ⟨fun S idle hunlisted hc => ?_, fun S idle hopen hc => ?_, fun hpast => ?_⟩
  · refine execDrain_idle idle ?_
    simp only [runDrain, drainIndices, drainPixels, readPixel_unlisted hc hunlisted]
    rfl
  · refine execDrain_idle idle ?_
    simp only [runDrain, drainIndices, drainBytes, hostReadByte_open hc hopen]
    rfl
  · have hbit : frameBit i s = .ok (drawBit s) := if_pos hpast
    show execFramebit i s = _
    simp only [execFramebit, hbit]
    rfl

/-- Settles O43: each step checks the condition that enables it, and NEXT its precondition, before anything else. -/
theorem stepsOutsideTheirConditionAreNotTaken : Obligations.StepsOutsideTheirConditionAreNotTaken :=
  fun _ => ⟨fun h => if_neg h, fun h => if_neg h, fun h => if_neg h, fun h => if_neg h, fun h => if_neg h, fun h => if_neg h,
    fun h => if_neg (Nat.not_lt.mpr h)⟩

end Sys2Proof.Proofs
end

section
/-! SUPPORT. What keeps the invariant of the machine (spec/10_state.md sections 2 to 5, spec/20_memory.md section 5,
spec/43_decoder.md section 2): the memories, STATUS and the registers, each on its own. -/

namespace Sys2Proof.Machine

/-! ### Every pixel fits its element -/

/-- Every pixel of PIXIN and of PIXOUT fits its element (spec/30_encoding.md R90). -/
structure PixelMemoriesFit (s : State) : Prop where
  pixin : PixelsFit s.par s.pixin
  pixout : PixelsFit s.par s.pixout

theorem pixelMemoriesFit_of_eq {s t : State} (hs : PixelMemoriesFit s) (hpar : t.par = s.par) (hpixin : t.pixin = s.pixin)
    (hpixout : t.pixout = s.pixout) : PixelMemoriesFit t :=
  ⟨by rw [hpar, hpixin]; exact hs.pixin, by rw [hpar, hpixout]; exact hs.pixout⟩

theorem setPixel_fit {s : State} (hs : PixelMemoriesFit s) (S : PixelSpace) (i : Nat) {p : Pixel} (hp : p.Fits s.par) :
    PixelMemoriesFit (setPixel S i p s) := by
  cases S with
  | pixin => exact ⟨memSet_pixelsFit hs.pixin i hp, hs.pixout⟩
  | pixout => exact ⟨hs.pixin, memSet_pixelsFit hs.pixout i hp⟩

/-- ENCODE's pixel is one of PIXIN with at most its red low bit replaced, or a drawn one (spec/42_encoder.md R167). -/
theorem encodePixel_fit {i : Nat} {s t : State} (hs : PixelMemoriesFit s) (h : encodePixel i s = .ok t) : PixelMemoriesFit t := by
  obtain ⟨p, q, s1, hread, ht, hq⟩ := encodePixel_cases h
  have hp : p.Fits s.par := readPixel_fits hread hs.pixin
  have hfits : q.Fits s.par := by
    rcases hq with rfl | ⟨b, rfl⟩
    · exact hp
    · exact writeBit_fits hp b
  rw [ht]
  exact setPixel_fit (s := { s with draws := t.draws }) ⟨hs.pixin, hs.pixout⟩ .pixout i hfits

theorem encodePass_fit {n : Nat} : ∀ {i : Nat} {s t : State}, PixelMemoriesFit s → encodePass n i s = .ok t →
    PixelMemoriesFit t := by
  induction n with
  | zero => intro i s t hs h; cases h; exact hs
  | succ n ih =>
    intro i s t hs h
    simp only [encodePass] at h
    split at h
    · rename_i hpixel; exact ih (encodePixel_fit hs hpixel) h
    · cases h

/-- ENCODE, ignored or run, keeps the pixels within their elements. -/
theorem execEncode_fit {s t : State} (hs : PixelMemoriesFit s) (h : execEncode s = .next t) : PixelMemoriesFit t := by
  unfold execEncode at h
  split at h
  · cases h; exact hs
  · have hlatch : PixelMemoriesFit (latch 0#1 s) := ⟨hs.pixin, hs.pixout⟩
    have hrun := toOutcome_eq_next.mp (next_of_guarded h).2
    unfold runEncode at hrun
    split at hrun
    · cases hrun; exact ⟨hs.pixin, hs.pixout⟩
    · split at hrun
      · rename_i hpass
        obtain ⟨hpixin, hpixout⟩ := encodePass_fit hlatch hpass
        cases hrun; exact ⟨hpixin, hpixout⟩
      · cases hrun

theorem snd_mem_of_mem_placeFrom {α : Type} {vs : List α} : ∀ {a : Nat} {e : Nat × α}, e ∈ placeFrom a vs → e.2 ∈ vs := by
  induction vs with
  | nil => intro a e h; cases h
  | cons v vs ih =>
    intro a e h
    rcases List.mem_cons.mp h with rfl | h
    · exact List.mem_cons_self
    · exact List.mem_cons_of_mem v (ih h)

/-- The pixels a well-formed FILL writes fit their elements (R90). -/
theorem fillElements_fit {par : Params} {f : FillForm Pixel} (hf : fillPixelsFit par f = true) {e : Nat × Pixel}
    (he : e ∈ fillElements f) : e.2.Fits par := by
  cases f with
  | one i v => obtain rfl := List.mem_singleton.mp he; exact of_decide_eq_true hf
  | range a b v =>
    rw [List.eq_of_mem_replicate (snd_mem_of_mem_placeFrom he)]
    exact of_decide_eq_true hf
  | list a vs => exact of_decide_eq_true (List.all_eq_true.mp hf _ (snd_mem_of_mem_placeFrom he))

theorem fillPixels_fit {S : PixelSpace} {es : List (Nat × Pixel)} : ∀ {s t : State}, PixelMemoriesFit s →
    (∀ e ∈ es, e.2.Fits s.par) → fillPixels S es s = .ok t → PixelMemoriesFit t := by
  induction es with
  | nil => intro s t hs _ h; cases h; exact hs
  | cons e es ih =>
    intro s t hs hes h
    simp only [fillPixels] at h
    split at h
    · rename_i u hwrite
      obtain rfl := writePixel_ok hwrite
      refine ih (setPixel_fit hs S e.1 (hes e List.mem_cons_self)) (fun d hd => ?_) h
      rw [setPixel_par]
      exact hes d (List.mem_cons_of_mem e hd)
    · cases h

/-- A well-formed FILL keeps the pixels within their elements. -/
theorem execFill_fit {f : FillOp} {s t : State} (hs : PixelMemoriesFit s) (hwf : wellFormed s.par (.fill f) = true)
    (h : execFill f s = .next t) : PixelMemoriesFit t := by
  have hrun := toOutcome_eq_next.mp (next_of_guarded h).2
  cases f with
  | pixels S f => exact fillPixels_fit hs (fun _ he => fillElements_fit hwf he) hrun
  | bytes S f =>
    have hframe := fillBytes_frame hrun
    rw [hframe]
    exact ⟨hs.pixin, hs.pixout⟩

/-- Every well-formed operation keeps the pixels within their elements: the pixels it writes come from PIXIN or from a FILL. -/
theorem exec_fit {i : Instr} {s t : State} (hs : PixelMemoriesFit s) (hwf : wellFormed s.par i = true) (h : exec i s = .next t) :
    PixelMemoriesFit t := by
  cases exec_storageEffect h with
  | kept hst =>
    obtain ⟨hpar, hpixin, hpixout, -, -⟩ := storage_eq_iff.mp hst
    exact pixelMemoriesFit_of_eq hs hpar hpixin hpixout
  | embedded hop =>
    rcases hop with rfl | rfl
    · exact execEncode_fit hs h
    · obtain ⟨-, -, -, u, hu, rfl⟩ := execEncStepPixel_next h
      exact pixelMemoriesFit_of_eq (encodePixel_fit hs hu) rfl rfl rfl
  | extracted _ hst =>
    obtain ⟨hpar, hpixin, hpixout, -⟩ := storage_eq_but_txt_iff.mp hst
    exact pixelMemoriesFit_of_eq hs hpar hpixin hpixout
  | filled f hop => subst hop; exact execFill_fit hs hwf h

/-! ### The registers' part of the invariant -/

/-- What the invariant asks of the registers, STATUS's DONE and ERR left out: their widths, and how the registers of a running
command hang together (spec/10_state.md R28 to R32). -/
structure RegistersInv (s : State) : Prop where
  widths : WidthsFit s
  phase : s.phase ≠ 0b11#2
  latched : s.phase ≠ 0b00#2 → LatchedExact s
  capacities : s.phase ≠ 0b00#2 → CapacitiesHold s
  fresh : s.phase = 0b01#2 → FreshlyStarted s
  pass : s.phase = 0b10#2 → PassPosition s
  validated : s.phase = 0b10#2 → s.mode = 0#1 → EncodeValidated s
  progress : s.phase = 0b10#2 → s.mode = 1#1 → DecodeProgress s

/-- The invariant is that of the memories, of STATUS and of the registers. -/
theorem inv_iff {s : State} :
    Inv s ↔ s.par.Ok ∧ MemoriesCanonical s ∧ PixelMemoriesFit s ∧ StatusLegal s ∧ RegistersInv s := by
  constructor
  · intro h
    exact ⟨h.params, h.canonical, ⟨h.pixinFit, h.pixoutFit⟩, h.status, { h with }⟩
  · rintro ⟨params, canonical, ⟨pixinFit, pixoutFit⟩, status, hregs⟩
    exact { hregs with params, canonical, pixinFit, pixoutFit, status }

/-- The registers of one state, with the memories, the marks and what the schedule and the host hold in another. -/
def withRest (s u : State) : State :=
  { s with
    pixin := u.pixin, pixout := u.pixout, pay := u.pay, txt := u.txt
    moves := u.moves, answer := u.answer, draws := u.draws, stale := u.stale }

section
variable {s t : State}

/-- The host's operands may change at any time, a running command has latched its own (R29). -/
theorem registersInv_of_operands (hs : RegistersInv s)
    (ht : t = withRest { s with width := t.width, height := t.height, len := t.len } t)
    (hwidth : t.width < 2 ^ s.par.dimw) (hheight : t.height < 2 ^ s.par.dimw) (hlen : t.len < 2 ^ s.par.lenw) : RegistersInv t := by
  rw [ht]
  exact
    { widths := { hs.widths with width := hwidth, height := hheight, len := hlen }
      phase := hs.phase
      latched := fun busy => { hs.latched busy with }
      capacities := fun busy => { hs.capacities busy with }
      fresh := fun check => { hs.fresh check with }
      pass := fun run => { hs.pass run with }
      validated := fun run hm => { hs.validated run hm with }
      progress := fun run hm => { hs.progress run hm with } }

/-- The memories and what the schedule and the host hold do not enter. -/
theorem registersInv_of_rest (hs : RegistersInv s) (ht : t = withRest s t) : RegistersInv t := by
  have hwidth : t.width = s.width := (congrArg State.width ht :)
  have hheight : t.height = s.height := (congrArg State.height ht :)
  have hlen : t.len = s.len := (congrArg State.len ht :)
  refine registersInv_of_operands hs ?_ (hwidth ▸ hs.widths.width) (hheight ▸ hs.widths.height) (hlen ▸ hs.widths.len)
  rw [hwidth, hheight, hlen]
  exact ht

/-- On an idle block only the widths matter. -/
theorem registersInv_of_idle (hs : WidthsFit s) (idle : s.phase = 0b00#2) : RegistersInv s := by
  have notCheck : s.phase ≠ 0b01#2 := by rw [idle]; decide
  have notRun : s.phase ≠ 0b10#2 := by rw [idle]; decide
  exact
    { widths := hs
      phase := by rw [idle]; decide
      latched := fun busy => absurd idle busy
      capacities := fun busy => absurd idle busy
      fresh := fun check => absurd check notCheck
      pass := fun run => absurd run notRun
      validated := fun run => absurd run notRun
      progress := fun run => absurd run notRun }

/-! ### The end of a command -/

/-- The command of a state has ended: OUT_LEN, DONE and ERR are written, PHASE is IDLE, and every other register is as it was
(spec/60_exceptions.md R224, R225). -/
def Ended (s t : State) : Prop :=
  t = withRest { s with outLen := t.outLen, done := t.done, err := t.err, phase := 0b00#2 } t

/-- The end of a command keeps the registers' part, whatever it leaves in OUT_LEN that fits. -/
theorem registersInv_of_ended (hs : WidthsFit s) (ht : Ended s t) (hout : t.outLen < 2 ^ s.par.lenw) : RegistersInv t := by
  have idle : t.phase = 0b00#2 := (congrArg State.phase ht :)
  refine registersInv_of_idle ?_ idle
  rw [ht]
  exact { hs with outLen := hout }

/-- As many groups as a grid has can be counted in LENW bits (spec/00_scope.md R9). -/
theorem groups_lt {par : Params} (hpar : par.Ok) {n : Nat} (hn : n < 2 ^ par.idxw) : n / 8 < 2 ^ par.lenw := by
  have hle : 2 ^ par.idxw ≤ 2 ^ (par.lenw + 3) := Nat.pow_le_pow_right (by decide) hpar.2.2
  rw [Nat.pow_add] at hle
  omega

/-! ### START -/

/-- What START latches fits: NPIX is the product of two DIMW-bit numbers, NBITS 8 times a LENW-bit number and 16
(spec/44_host_commands.md R203). -/
theorem latch_widthsFit (hs : WidthsFit s) (hpar : s.par.Ok) (m : BitVec 1) : WidthsFit (latch m s) := by
  have hpix : s.width * s.height < 2 ^ s.par.idxw := by
    rw [Params.idxw, Nat.two_mul, Nat.pow_add]
    exact Nat.mul_lt_mul'' hs.width hs.height
  have hbits : 8 * s.len + 16 < 2 ^ (s.par.lenw + 4) := by
    have hlen := hs.len
    have htwo : 2 ^ 1 ≤ 2 ^ s.par.lenw := Nat.pow_le_pow_right (by decide) hpar.2.1
    rw [Nat.pow_add]
    omega
  exact
    { hs with
      outLen := Nat.two_pow_pos _, wL := hs.width, hL := hs.height, lenL := hs.len, npix := hpix, nbits := hbits
      idx := Nat.two_pow_pos _, x := Nat.two_pow_pos _, y := Nat.two_pow_pos _, ngrp := Nat.two_pow_pos _ }

/-- The capacities checked at START are those the running command needs (spec/20_memory.md R71). -/
theorem latch_capacitiesHold {m : BitVec 1} (h : capacitiesCover m s = true) : CapacitiesHold (latch m s) := by
  rcases BitVec.eq_zero_or_eq_one m with rfl | rfl
  · obtain ⟨hpix, hpay⟩ := capacitiesCover_encode.mp h
    exact ⟨hpix, fun _ => hpay, fun hm => absurd hm (by simp)⟩
  · obtain ⟨hpix, htxt⟩ := capacitiesCover_decode.mp h
    exact ⟨hpix, fun hm => absurd hm (by simp), fun _ => htxt⟩

/-- A START that is not ignored leaves CHECK with everything fresh (R203). -/
theorem latch_registersInv (hs : RegistersInv s) (hpar : s.par.Ok) {m : BitVec 1} (h : capacitiesCover m s = true) :
    RegistersInv (latch m s) := by
  have notRun : (latch m s).phase ≠ 0b10#2 := by simp
  exact
    { widths := latch_widthsFit hs.widths hpar m
      phase := by simp
      latched := fun _ => ⟨rfl, rfl, rfl⟩
      capacities := fun _ => latch_capacitiesHold h
      fresh := fun _ => ⟨rfl, rfl, rfl, rfl, rfl, rfl, rfl⟩
      pass := fun run => absurd run notRun
      validated := fun run => absurd run notRun
      progress := fun run => absurd run notRun }

theorem startOp_registersInv {op : BitVec 2} (hs : RegistersInv s) (hpar : s.par.Ok) (h : startOp op s = .next t) :
    RegistersInv t := by
  rcases startOp_cases h with rfl | ⟨-, m, hcap, rfl⟩
  · exact hs
  · exact latch_registersInv hs hpar hcap

/-- WR keeps the low bits that fit the register, or starts a command (spec/44_host_commands.md R201). -/
theorem writeReg_registersInv {reg value : Nat} (hs : RegistersInv s) (hpar : s.par.Ok) (h : writeReg reg value s = .next t) :
    RegistersInv t := by
  obtain ⟨hwidth, hheight, hlen⟩ : s.width < 2 ^ s.par.dimw ∧ s.height < 2 ^ s.par.dimw ∧ s.len < 2 ^ s.par.lenw :=
    ⟨hs.widths.width, hs.widths.height, hs.widths.len⟩
  have hlow (n : Nat) : value % 2 ^ n < 2 ^ n := Nat.mod_lt _ (Nat.two_pow_pos n)
  unfold writeReg at h
  split at h
  · exact startOp_registersInv hs hpar h
  · cases h; exact registersInv_of_operands hs rfl (hlow _) hheight hlen
  · cases h; exact registersInv_of_operands hs rfl hwidth (hlow _) hlen
  · cases h; exact registersInv_of_operands hs rfl hwidth hheight (hlow _)
  · cases h; exact hs

/-! ### The whole commands -/

/-- ENCODE on latched operands ends the command and leaves OUT_LEN (spec/42_encoder.md R160). -/
theorem runEncode_ended (h : runEncode s = .ok t) : Ended s t ∧ t.outLen = s.outLen := by
  unfold runEncode at h
  split at h
  · cases h; exact ⟨rfl, rfl⟩
  · split at h
    · rename_i u hpass
      have hframe := encodePass_frame hpass
      cases h; exact ⟨by rw [hframe]; rfl, (congrArg State.outLen hframe :)⟩
    · cases h

/-- DECODE on latched operands ends the command, with no more bytes in OUT_LEN than the grid has groups
(spec/43_decoder.md R180, R184). -/
theorem runDecode_ended (h : runDecode s = .ok t) : Ended s t ∧ (t.outLen = s.outLen ∨ t.outLen ≤ s.npix / 8) := by
  unfold runDecode at h
  split at h
  · cases h
  · rename_i bits u hread
    obtain ⟨hu, hlen⟩ := readBits_frame hread
    split at h
    · cases h; exact ⟨by rw [hu]; rfl, .inl (congrArg State.outLen hu :)⟩
    · rename_i r hr
      have hshort := length_of_unframe hr
      split at h
      · cases h
      · rename_i w htext
        have hw := writeText_frame htext
        rw [hu] at hw
        refine ⟨?_, .inr ?_⟩
        · cases h; rw [hw]; rfl
        · cases h
          show r.length ≤ s.npix / 8
          omega

theorem execEncode_registersInv (hs : RegistersInv s) (hpar : s.par.Ok) (h : execEncode s = .next t) : RegistersInv t := by
  unfold execEncode at h
  split at h
  · cases h; exact hs
  · have hwidths := latch_widthsFit hs.widths hpar 0#1
    obtain ⟨hended, hout⟩ := runEncode_ended (toOutcome_eq_next.mp (next_of_guarded h).2)
    exact registersInv_of_ended hwidths hended (hout ▸ hwidths.outLen)

theorem execDecode_registersInv (hs : RegistersInv s) (hpar : s.par.Ok) (h : execDecode s = .next t) : RegistersInv t := by
  unfold execDecode at h
  split at h
  · cases h; exact hs
  · have hwidths := latch_widthsFit hs.widths hpar 1#1
    obtain ⟨hended, hout | hout⟩ := runDecode_ended (toOutcome_eq_next.mp (next_of_guarded h).2)
    · exact registersInv_of_ended hwidths hended (hout ▸ hwidths.outLen)
    · exact registersInv_of_ended hwidths hended (Nat.lt_of_le_of_lt hout (groups_lt hpar hwidths.npix))

/-! ### The checks -/

/-- A check that passes goes to RUN at the first position of the grid, with no bit read yet (R166, R186). -/
theorem registersInv_of_check (hs : RegistersInv s) (check : s.phase = 0b01#2) (hvalid : s.mode = 0#1 → EncodeValidated s) :
    RegistersInv { s with phase := 0b10#2 } := by
  have busy : s.phase ≠ 0b00#2 := by rw [check]; decide
  obtain ⟨hidx, hx, hy, hshreg, hbitcnt, -, hngrp⟩ := hs.fresh check
  have hnpix := (hs.latched busy).npix
  exact
    { widths := { hs.widths with }
      phase := by simp
      latched := fun _ => { hs.latched busy with }
      capacities := fun _ => { hs.capacities busy with }
      fresh := fun h => absurd h (by simp)
      pass := fun _ =>
        { bound := by simp [hidx]
          position := by simp [hidx, hx, hy, elementIndex]
          inside := fun hlt => by
            have hpos : 0 < s.wL * s.hL := by rw [← hnpix]; exact Nat.zero_lt_of_lt hlt
            simpa [hx, hy] using hpos
          atEnd := fun hend hw => by
            have hempty : s.wL * s.hL = 0 := by rw [← hnpix, ← hidx]; exact hend.symm
            exact ⟨hx, hy.trans ((Nat.mul_eq_zero.mp hempty).resolve_left hw).symm⟩ }
      validated := fun _ hm => { hvalid hm with }
      progress := fun _ _ => ⟨by simp [hidx, hbitcnt], by simp [hidx, hngrp], by simp [hidx, hshreg]⟩ }

/-- What ENCODE's validation lets pass (R161, R162). -/
theorem encodeValidated_of_verdict (h : encodeVerdict s = none) : EncodeValidated s := by
  have hfits := nbits_le_npix_of_encodeVerdict h
  have hnonzero : ¬(s.lenL = 0 ∨ s.wL = 0 ∨ s.hL = 0) := fun hzero => by rw [encodeVerdict_invalid hzero] at h; cases h
  obtain ⟨hlen, hw, hh⟩ : s.lenL ≠ 0 ∧ s.wL ≠ 0 ∧ s.hL ≠ 0 := by simpa only [not_or] using hnonzero
  exact ⟨hlen, hw, hh, hfits⟩

theorem execEncCheck_registersInv (hs : RegistersInv s) (h : execEncCheck s = .next t) : RegistersInv t := by
  obtain ⟨check, -, ⟨e, -, rfl⟩ | ⟨hverdict, rfl⟩⟩ := execEncCheck_cases h
  · exact registersInv_of_ended hs.widths rfl hs.widths.outLen
  · exact registersInv_of_check hs check fun _ => encodeValidated_of_verdict hverdict

theorem execDecCheck_registersInv (hs : RegistersInv s) (h : execDecCheck s = .next t) : RegistersInv t := by
  obtain ⟨check, hmode, rfl⟩ := execDecCheck_next h
  exact registersInv_of_check hs check fun hm => absurd (hmode.symm.trans hm) (by decide)

/-! ### NEXT -/

/-- A position within the row is in the grid exactly when its row is (spec/20_memory.md R61). -/
theorem elementIndex_lt_iff {w h x y : Nat} (hx : x < w) : elementIndex w x y < w * h ↔ y < h := by
  rw [elementIndex, Nat.mul_comm w h]
  constructor
  · intro hlt
    by_contra hge
    have := Nat.mul_le_mul_right w (Nat.le_of_not_lt hge)
    omega
  · intro hlt
    have := Nat.mul_le_mul_right w (Nat.succ_le_of_lt hlt)
    rw [Nat.succ_mul] at this
    omega

/-- NEXT goes to the next position of the grid, or, past the last, to X = 0, Y = H_L (spec/40_bit_sequencer.md R123). -/
theorem passPosition_advance (hs : PassPosition s) (hnpix : s.npix = s.wL * s.hL) (hidx : s.idx < s.npix) :
    PassPosition (advance s) ∧ (advance s).x < s.wL ∧ (advance s).y ≤ s.hL := by
  obtain ⟨hx, hy⟩ := hs.inside hidx
  have hx' : (advance s).x < s.wL := by rw [advance_x]; split <;> omega
  have hy' : (advance s).y ≤ s.hL := by rw [advance_y]; split <;> omega
  have hposition : s.idx + 1 = elementIndex s.wL (advance s).x (advance s).y := by rw [elementIndex_advance, ← hs.position]
  have hinside : s.idx + 1 < s.npix ↔ (advance s).y < s.hL := by rw [hposition, hnpix, elementIndex_lt_iff hx']
  refine ⟨⟨hidx, hposition, fun hlt => ⟨hx', hinside.mp hlt⟩, fun hend _ => ?_⟩, hx', hy'⟩
  have hlast : (advance s).y = s.hL := by
    have hend : s.idx + 1 = s.npix := hend
    have := mt hinside.mpr (by omega)
    omega
  have hzero : s.wL * s.hL = elementIndex s.wL (advance s).x s.hL := by
    rw [← hnpix, ← hlast, ← hposition]; exact hend.symm
  rw [elementIndex, Nat.mul_comm] at hzero
  exact ⟨by omega, hlast⟩

/-- NEXT after a pixel's work `u`, which keeps all registers but DECODE's data path, and brings that to the pixel after
(R167, R187). -/
theorem registersInv_of_advance {u : State} (hs : RegistersInv s) (run : s.phase = 0b10#2) (hidx : s.idx < s.npix)
    (hu : u = withRest { s with shreg := u.shreg, bitcnt := u.bitcnt, prev := u.prev, ngrp := u.ngrp } u)
    (hngrp : u.ngrp < 2 ^ s.par.lenw) (hprogress : s.mode = 1#1 → DecodeProgress (advance u)) : RegistersInv (advance u) := by
  have busy : s.phase ≠ 0b00#2 := by rw [run]; decide
  obtain ⟨hpass, hx, hy⟩ := passPosition_advance (hs.pass run) (hs.latched busy).npix hidx
  have notCheck : (advance u).phase ≠ 0b01#2 := by rw [hu]; show s.phase ≠ 0b01#2; rw [run]; decide
  have hmode : (advance u).mode = s.mode := by rw [hu]; rfl
  have hprogress' (hm : (advance u).mode = 1#1) := hprogress (hmode ▸ hm)
  have hwidths := hs.widths
  rw [hu] at notCheck hprogress' ⊢
  exact
    { widths :=
        { hwidths with
          idx := Nat.lt_of_le_of_lt hidx hwidths.npix, x := Nat.lt_trans hx hwidths.wL
          y := Nat.lt_of_le_of_lt hy hwidths.hL, ngrp := hngrp }
      phase := hs.phase
      latched := fun _ => { hs.latched busy with }
      capacities := fun _ => { hs.capacities busy with }
      fresh := fun check => absurd check notCheck
      pass := fun _ => { hpass with }
      validated := fun _ hm => { hs.validated run hm with }
      progress := fun _ hm => hprogress' hm }

theorem execEncStepPixel_registersInv (hs : RegistersInv s) (h : execEncStepPixel s = .next t) : RegistersInv t := by
  obtain ⟨run, hmode, hidx, u, hu, rfl⟩ := execEncStepPixel_next h
  have hframe := encodePixel_frame hu
  have hngrp : u.ngrp = s.ngrp := (congrArg State.ngrp hframe :)
  exact registersInv_of_advance hs run hidx (by rw [hframe]; rfl) (hngrp ▸ hs.widths.ngrp)
    fun hm => absurd (hmode.symm.trans hm) (by decide)

/-! ### DECODE's data path -/

/-- A shift brings one more bit into SHREG (R187). -/
theorem shiftIn_lt {v : Byte} {k : Nat} (hv : v.toNat < 2 ^ k) (b : Bool) : (shiftIn v b).toNat < 2 ^ (k + 1) := by
  have hshift : (v <<< 1).toNat < 2 ^ (k + 1) := by
    rw [BitVec.toNat_shiftLeft, Nat.shiftLeft_eq, Nat.pow_succ]
    exact Nat.lt_of_le_of_lt (Nat.mod_le _ _) (by omega)
  have hbit : (if b then 1#8 else 0#8).toNat < 2 ^ (k + 1) := by
    have := Nat.two_pow_pos k
    rw [Nat.pow_succ]
    cases b
    · show 0 < _; omega
    · show 1 < _; omega
  rw [shiftIn, BitVec.toNat_or]
  exact Nat.or_lt_two_pow hshift hbit

/-- Unless it completes the command, DEC_STEP's pixel and NEXT keep the data path in step with IDX (R187, R188). -/
theorem decodePixel_progress (hs : DecodeProgress s) (h : decodePixel s = .ok t) (running : t.phase ≠ 0b00#2) :
    DecodeProgress (advance t) := by
  obtain ⟨hbitcnt, hngrp⟩ := (decodePixel_groupsFollow h ⟨hs.bitcnt, hs.ngrp⟩).resolve_left fun ended => running ended.1
  have hidx : t.idx = s.idx := by
    rcases decodePixel_cases h with ⟨idle, -⟩ | hframe
    · exact absurd idle running
    · exact (congrArg State.idx hframe :)
  have hshreg : t.shreg.toNat < 2 ^ ((s.idx + 1) % 8) := by
    obtain ⟨p, n, -, ⟨-, hgroup⟩ | ⟨hlast, rfl⟩⟩ := decodePixel_shift_or_group h
    · rcases groupComplete_cases hgroup with ⟨-, rfl⟩ | ⟨-, rfl⟩
      · exact absurd rfl running
      · exact Nat.two_pow_pos _
    · have h7 : s.idx % 8 ≠ 7 := fun h7 => hlast (BitVec.eq_of_toNat_eq (hs.bitcnt.trans h7))
      rw [show (s.idx + 1) % 8 = s.idx % 8 + 1 by omega]
      exact shiftIn_lt hs.shreg _
  exact ⟨by rwa [advance_idx, hidx], by rwa [advance_idx, hidx], by rwa [advance_idx, hidx]⟩

/-- DEC_STEP's pixel that completes the command ends it with the groups before the marker's second in OUT_LEN (R188). -/
theorem decodePixel_ended (h : decodePixel s = .ok t) (busy : s.phase ≠ 0b00#2) (idle : t.phase = 0b00#2) :
    Ended s t ∧ t.outLen = s.ngrp - 1 := by
  obtain ⟨p, n, -, ⟨-, hgroup⟩ | ⟨-, rfl⟩⟩ := decodePixel_shift_or_group h
  · rcases groupComplete_cases hgroup with ⟨-, rfl⟩ | ⟨-, rfl⟩
    · exact ⟨rfl, rfl⟩
    · exact absurd idle busy
  · exact absurd idle busy

theorem execDecStepPixel_registersInv (hs : RegistersInv s) (hpar : s.par.Ok) (h : execDecStepPixel s = .next t) :
    RegistersInv t := by
  obtain ⟨⟨run, hmode, hidx⟩, ht⟩ := next_of_guarded h
  have busy : s.phase ≠ 0b00#2 := by rw [run]; decide
  split at ht
  · cases ht
  · rename_i u hu
    split at ht
    case isTrue idle =>
      cases ht
      obtain ⟨hended, hout⟩ := decodePixel_ended hu busy idle
      exact registersInv_of_ended hs.widths hended (hout ▸ Nat.lt_of_le_of_lt (Nat.sub_le _ _) hs.widths.ngrp)
    case isFalse running =>
      cases ht
      have hframe := (decodePixel_cases hu).resolve_left fun ended => running ended.1
      have hprogress := decodePixel_progress (hs.progress run hmode) hu running
      have hngrp : u.ngrp < 2 ^ s.par.lenw := by
        have hcount : u.ngrp = (u.idx + 1) / 8 := hprogress.ngrp
        have huidx : u.idx = s.idx := (congrArg State.idx hframe :)
        rw [hcount, huidx]
        exact groups_lt hpar (Nat.lt_of_le_of_lt hidx hs.widths.npix)
      exact registersInv_of_advance hs run hidx (by rw [hframe]; rfl) hngrp fun _ => hprogress

/-! ### Every operation but NEXT on its own -/

/-- Every operation but NEXT on its own, which would move IDX away from what has been read, keeps the registers' part. -/
theorem exec_registersInv {i : Instr} (hs : RegistersInv s) (hpar : s.par.Ok) (hi : i ≠ .next) (h : exec i s = .next t) :
    RegistersInv t := by
  cases i with
  | nop | reservedOp3 => cases h; exact hs
  | positions _ _ | readbit _ | writebit _ _ | muxsel _ _ | frame _ | unframe _ | rd _ => cases h; exact registersInv_of_rest hs rfl
  | encode => exact execEncode_registersInv hs hpar h
  | decode => exact execDecode_registersInv hs hpar h
  | encCheck => exact execEncCheck_registersInv hs h
  | decCheck => exact execDecCheck_registersInv hs h
  | encStepPixel => exact execEncStepPixel_registersInv hs h
  | encStepEnd =>
    obtain ⟨-, -, -, rfl⟩ := execEncStepEnd_next h
    exact registersInv_of_ended hs.widths rfl hs.widths.outLen
  | decStepPixel => exact execDecStepPixel_registersInv hs hpar h
  | decStepEnd =>
    obtain ⟨-, -, -, rfl⟩ := execDecStepEnd_next h
    exact registersInv_of_ended hs.widths rfl hs.widths.outLen
  | next => exact absurd rfl hi
  | framebit _ => exact registersInv_of_rest hs (by rw [execFramebit_frame h]; rfl)
  | wr _ _ => exact writeReg_registersInv hs hpar h
  | start _ => exact startOp_registersInv hs hpar h
  | wait => exact registersInv_of_rest hs (by rw [execWait_frame h]; rfl)
  | fill _ => exact registersInv_of_rest hs (by rw [(execFill_frame h).2]; rfl)
  | drain _ => exact registersInv_of_rest hs (by rw [(execDrain_frame h).2]; rfl)

end

/-! ### The invariant -/

/-- No move fetches NEXT: neither encoding has a word for it, and it is no transaction (spec/30_encoding.md R104). -/
theorem fetchMove_ne_next {m : Move} {s : State} {i : Instr} (h : fetchMove m s = .ok i) : i ≠ .next := by
  cases m with
  | engine =>
    have hstep := (fetchEngine_eq_decodeStep s).symm.trans h
    rcases decodeStep_ok_cases hstep with rfl | rfl | rfl | rfl | rfl | rfl <;> simp
  | host op => cases h; cases op <;> simp [hostInstr]
  | call w =>
    cases h
    unfold decodeCmd
    split_ifs <;> simp
  | test _ | reset => cases h

/-- A step resets, lets the host decide, or leaves the block or performs one well-formed operation other than NEXT, always on the
state under another schedule. -/
theorem step_cases_but_next {s t : State} (h : step s = .next t) : ∃ ms,
    t = assertReset { s with moves := ms } ∨ (∃ d, hostTest d { s with moves := ms } = .next t) ∨ t = { s with moves := ms } ∨
    ∃ i, i ≠ .next ∧ wellFormed s.par i = true ∧ exec i { s with moves := ms } = .next t := by
  have performed {m : Move} {ms : List Move} (hp : perform (fetchMove m s) { s with moves := ms } = .next t) :
      t = { s with moves := ms } ∨
      ∃ i, i ≠ .next ∧ wellFormed s.par i = true ∧ exec i { s with moves := ms } = .next t := by
    rcases perform_cases hp with ⟨-, ht⟩ | ⟨i, hi, hwf, hexec⟩
    · exact .inl ht
    · exact .inr ⟨i, fetchMove_ne_next hi, hwf, hexec⟩
  cases hmoves : s.moves with
  | nil =>
    have hturn : engineTurn s = .next t := (step_unscheduled hmoves).symm.trans h
    exact ⟨s.moves, .inr (.inr (performed (m := .engine) hturn))⟩
  | cons m ms =>
    refine ⟨ms, ?_⟩
    cases m with
    | reset => rw [step_reset hmoves] at h; cases h; exact .inl rfl
    | test d => exact .inr (.inl ⟨d, step_test hmoves ▸ h⟩)
    | engine | host _ | call _ =>
      rw [step_fetched hmoves (by simp) (by simp)] at h
      exact .inr (.inr (performed h))

section
variable {s t : State} (hs : Inv s)
include hs

/-- What the schedule and the host hold do not enter the invariant. -/
theorem inv_of_caller (ht : t = { s with moves := t.moves, answer := t.answer }) : Inv t := by
  obtain ⟨hpar, hcanonical, hfit, hstatus, hregs⟩ := inv_iff.mp hs
  have hstorage : t.storage = s.storage := (congrArg State.storage ht :)
  obtain ⟨hpar', hpixin, hpixout, -⟩ := storage_eq_iff.mp hstorage
  exact inv_iff.mpr ⟨hpar' ▸ hpar, canonical_of_storage_eq hcanonical hstorage, pixelMemoriesFit_of_eq hfit hpar' hpixin hpixout,
    statusLegal_of_control_eq (congrArg State.control ht :) hstatus, registersInv_of_rest hregs (by rw [ht]; rfl)⟩

/-- A reset at any time keeps the invariant: the block is idle, and the registers and memories it clears are in order
(spec/70_reset_and_hazards.md R250). -/
theorem inv_assertReset : Inv (assertReset s) := by
  obtain ⟨hpar, hcanonical, hfit, -, hregs⟩ := inv_iff.mp hs
  have hwidths : WidthsFit (assertReset s) :=
    { hregs.widths with
      width := Nat.two_pow_pos _, height := Nat.two_pow_pos _, len := Nat.two_pow_pos _, outLen := Nat.two_pow_pos _ }
  exact inv_iff.mpr ⟨hpar, assertReset_canonical hcanonical, ⟨hfit.pixin, by simp [PixelsFit]⟩,
    ⟨fun busy => absurd rfl busy, fun _ => rfl⟩, registersInv_of_idle hwidths rfl⟩

/-- Every well-formed operation but NEXT on its own keeps the invariant. -/
theorem exec_inv {i : Instr} (hi : i ≠ .next) (hwf : wellFormed s.par i = true) (h : exec i s = .next t) : Inv t := by
  obtain ⟨hpar, hcanonical, hfit, hstatus, hregs⟩ := inv_iff.mp hs
  have hpar' : t.par = s.par := (Proofs.onlyFillChangesTheInputMemories i s t h).1
  exact inv_iff.mpr ⟨hpar' ▸ hpar, exec_canonical hcanonical h, exec_fit hfit hwf h, exec_statusLegal h hstatus,
    exec_registersInv hregs hpar hi h⟩

/-- Every step keeps the invariant. -/
theorem step_inv (h : step s = .next t) : Inv t := by
  obtain ⟨ms, hcases⟩ := step_cases_but_next h
  have hmoves : Inv { s with moves := ms } := inv_of_caller hs rfl
  rcases hcases with rfl | ⟨d, hd⟩ | rfl | ⟨i, hi, hwf, hexec⟩
  · exact inv_assertReset hmoves
  · exact inv_of_caller hmoves (hostTest_frame hd)
  · exact hmoves
  · exact exec_inv hmoves hi hwf hexec

end

/-- Every register of the reset state fits its width: each is 0 (spec/10_state.md R37; log 1). -/
theorem reset_widthsFit : WidthsFit State.reset := by
  constructor <;> exact Nat.two_pow_pos _

end Sys2Proof.Machine
end

section
/-! The statements on the invariant of the machine. -/

namespace Sys2Proof.Proofs

open Machine

/-- Settles O57: the reset state is idle, its registers are 0 and its memories empty. -/
theorem resetMeetsTheInvariant : Obligations.ResetMeetsTheInvariant :=
  inv_iff.mpr ⟨by decide, reset_memories_canonical, ⟨by simp [PixelsFit, State.reset], by simp [PixelsFit, State.reset]⟩, by decide,
    registersInv_of_idle reset_widthsFit rfl⟩

/-- Settles O56: a reset, a host's decision and an idle turn keep the invariant, and so does every operation a move can fetch. -/
theorem stepKeepsTheInvariant : Obligations.StepKeepsTheInvariant :=
  fun _ _ hs h => step_inv hs h

end Sys2Proof.Proofs
end
